-- ==== Sys2Proof/Word.lean ====
section
/-! DEFINITION. The word types of the engine: bit 0 is the least significant bit of every word (R12), a bus
transaction moves one 32-bit word (R51). -/

namespace Sys2Proof

/-- A 32-bit register, RAM or bus word (R25, R51). -/
abbrev Word := BitVec 32

/-- One byte lane of a word (R51). -/
abbrev Byte := BitVec 8

/-- A 46-bit host transaction record (R66). -/
abbrev Record := BitVec 46

end Sys2Proof
end

