-- ==== Sys2Proof/Config.lean ====
section
/-! DEFINITION. The configuration of R8: the values fixed for this hardware, the OPEN parameters as one
uninterpreted constant `Config.hw` that is known only to be well formed (R10, R11), and the free values. -/

namespace Sys2Proof

/-- `N`, samples per block (R8). -/
abbrev Config.blockLen : Nat := 4000

/-- `NUM_TONES`, tone-table entries (R8). -/
abbrev Config.numTones : Nat := 50

/-- `RESERVED_TONE`, the tone index excluded from decisions (R8, R81). -/
abbrev Config.reservedTone : Nat := 0

/-- `DECIM`, the FIR decimation factor (R8). -/
abbrev Config.decim : Nat := 8

/-- `CELL`, the nominal bit-cell length in waveform samples (R8). -/
abbrev Config.cell : Nat := 8

/-- `SYNC_START`, the first waveform index the synchroniser visits (R8). -/
abbrev Config.syncStart : Nat := 1

/-- `SYNC_END`, the last waveform index the synchroniser visits, inclusive (R8). -/
abbrev Config.syncEnd : Nat := 464

/-- `EDGE_PHASES`, the phases of the bit cell at which the current-sample edge search runs (R8). -/
abbrev Config.edgePhases : List Nat := [6, 7, 0]

/-- `THR_NUM` and `THR_DEN`, the adaptive threshold ratio (R8). -/
abbrev Config.thrNum : Int := 5
abbrev Config.thrDen : Int := 16

/-- `DETECT_FACTOR`, the tone decision factor (R8). -/
abbrev Config.detectFactor : Nat := 50

/-- `AVG_DIV`, the divisor of the tone average (R8). -/
abbrev Config.avgDiv : Nat := 50

/-- `SYNC_BITS`, the width of the synchroniser's shift register (R8). -/
abbrev Config.syncBits : Nat := 31

/-- `INVERT_MASK`, all ones over 23 bits (R8). -/
abbrev Config.invertMask : BitVec 23 := 0x7FFFFF#23

/-- `SYNC_MASK` and `SYNC_VAL`, the frame-sync marker test (R8). -/
abbrev Config.syncMask : BitVec 23 := 0xE00#23
abbrev Config.syncVal : BitVec 23 := 0x800#23

/-- `MAX_ROT`, the rotation search bound (R8). -/
abbrev Config.maxRot : Nat := 23

/-- `TIMEOUT_DEFAULT`, the reset value of the display-idle timeout (R8). -/
abbrev Config.timeoutDefault : Word := 5#32

/-- How many WAVE entries the address map can hold: L is at most 500 (R50). -/
abbrev Config.waveCapacity : Nat := 500

/-- The OPEN parameters of R8 as data: any values at all, well formed or not. -/
structure Config.Params where
  /-- `T`, the FIR half-length. -/
  t : Nat
  /-- `TAPS[j]`, j < T. -/
  taps : List Int
  /-- `SF[k]`, the scaled-frequency word of tone k. -/
  sf : List Nat
  /-- `SIN[a]`, a < 1024. -/
  sin : List Int
  /-- `COS[a]`, a < 1024. -/
  cos : List Int
  /-- `GOLAY_ROW[i]`, i < 12. -/
  golayRow : List Nat
  /-- `ALIAS_STD[k]`, k < 512. -/
  aliasStd : List Nat
  /-- `ALIAS_LA[k]`, k < 512. -/
  aliasLa : List Nat
  /-- `CORE_ID`, the value of the ID register. -/
  coreId : Word
  /-- `TONE_LANES`, the number of parallel tone scanners. -/
  toneLanes : Nat
deriving DecidableEq, Repr

/-- `TAPS[j]`. -/
def Config.Params.tap (p : Config.Params) (j : Nat) : Int := p.taps.getD j 0

/-- `L`, the waveform length: the number of multiples of 8 in [0, N - 2T) (R9). -/
def Config.Params.waveLen (p : Config.Params) : Nat :=
  (Config.blockLen - 2 * p.t + 7) / Config.decim

/-- `S_TAP`, the sum of the magnitudes of the filter's 2T - 1 coefficients (R11). -/
def Config.Params.sTap (p : Config.Params) : Nat :=
  2 * ((List.range (p.t - 1)).map fun j => (p.tap j).natAbs).sum + (p.tap (p.t - 1)).natAbs

/-- The length checks of R10: 1 <= T, N >= 2T + 1, L >= SYNC_END + 3. -/
def Config.Params.lengthOk (p : Config.Params) : Bool :=
  decide (1 ≤ p.t) && decide (2 * p.t + 1 ≤ Config.blockLen) && decide (Config.syncEnd + 3 ≤ p.waveLen)

/-- The taps are T in number and satisfy the bound of R11. -/
def Config.Params.tapsOk (p : Config.Params) : Bool :=
  decide (p.taps.length = p.t) && decide (5 * 512 * p.sTap < 2 ^ 31)

/-- Every `SIN[a]` and `COS[a]` lies in [-2048, 2047] (R10), 1024 of each (R8). -/
def Config.Params.trigOk (p : Config.Params) : Bool :=
  decide (p.sin.length = 1024) && decide (p.cos.length = 1024)
    && p.sin.all (fun v => decide (-2048 ≤ v ∧ v ≤ 2047))
    && p.cos.all (fun v => decide (-2048 ≤ v ∧ v ≤ 2047))

/-- Every `SF[k]` lies in [0, 2^32) (R10), 50 of them (R8). -/
def Config.Params.sfOk (p : Config.Params) : Bool :=
  decide (p.sf.length = Config.numTones) && p.sf.all (fun v => decide (v < 2 ^ 32))

/-- Every `GOLAY_ROW[i]` lies in [0, 2^11) (R10), 12 of them (R8). -/
def Config.Params.golayOk (p : Config.Params) : Bool :=
  decide (p.golayRow.length = 12) && p.golayRow.all (fun v => decide (v < 2 ^ 11))

/-- The alias maps have 512 entries of 16 bits each (R8). -/
def Config.Params.aliasOk (p : Config.Params) : Bool :=
  decide (p.aliasStd.length = 512) && decide (p.aliasLa.length = 512)
    && p.aliasStd.all (fun v => decide (v < 2 ^ 16)) && p.aliasLa.all (fun v => decide (v < 2 ^ 16))

/-- `TONE_LANES` is 1 to 50 (R8). -/
def Config.Params.lanesOk (p : Config.Params) : Bool :=
  decide (1 ≤ p.toneLanes ∧ p.toneLanes ≤ Config.numTones)

/-- A well-formed configuration (R8, R10, R11). An ill-formed one gives no machine (R10, R156). -/
def Config.Params.wf (p : Config.Params) : Bool :=
  p.lengthOk && p.tapsOk && p.trigOk && p.sfOk && p.golayOk && p.aliasOk && p.lanesOk

/-- One well-formed configuration. It only shows that there is one, so that `Config.hw` may be declared; the
hardware's own tables are OPEN and this is not them. -/
def Config.wellFormedExample : Config.Params :=
  { t := 1, taps := [1], sf := List.replicate 50 0, sin := List.replicate 1024 0, cos := List.replicate 1024 0,
    golayRow := List.replicate 12 0, aliasStd := List.replicate 512 0, aliasLa := List.replicate 512 0,
    coreId := 0, toneLanes := 1 }

theorem Config.wellFormedExample_wf : Config.wellFormedExample.wf = true := by decide +kernel

/-- A configuration that has a machine: parameters with the proof that they are well formed (R10, R11). -/
structure Config.Hardware where
  params : Config.Params := Config.wellFormedExample
  ok : params.wf = true := by exact Config.wellFormedExample_wf
deriving Inhabited

/-- The configuration of the hardware: OPEN (R8), known only to be well formed. Log 6. -/
opaque Config.hw : Config.Hardware

/-- `IDLE_UPDATE(toneFound, dcsFound, timeout, phase)`: OPEN, a total function (R39). Log 13. -/
opaque Config.idleUpdate : Bool → Bool → Word → Word → Word × Word

/-- `BASE`, the platform address of the engine's offset 0: OPEN (R49). No rule reads it. Log 17. -/
opaque Config.base : Nat

/-- The free value of `SF[k]` for k at or above `NUM_TONES`, which R8 does not give. Only a pending SCORE that acceptance
never leaves could read it (R121). Log 11. -/
opaque Config.sfBeyond : Nat → Nat

/-- The free value of the n-th draw: what a host read of the WAVE window returns while a command that writes WAVE
runs (R54). Log 5. -/
opaque Config.waveDraw : Nat → Word

end Sys2Proof
end

