-- ==== Sys2Proof/Syntax.lean ====
section
/-! DEFINITION. The instructions: one constructor of `Instr` per row of the opcode table (R64, R68), the eleven
commands the engine can hold as pending (R44), and the two word formats (R65, R66). -/

namespace Sys2Proof

/-- The eleven commands of the CMD format (R68). Only SCORE carries its `arg8`; in every other command it is 0 (R65). -/
inductive Command where
  | nop | run | classify | dcs
  | score (arg8 : BitVec 8)
  | filter | recover | resolve | golayEnc | golayChk | clrblk
deriving DecidableEq, Repr

/-- Every row of the opcode table: the eleven commands, and the two host transactions READ and WRITE (R68). -/
inductive Instr where
  | nop | run | classify | dcs
  | score (arg8 : BitVec 8)
  | filter | recover | resolve | golayEnc | golayChk | clrblk
  | read (waddr : BitVec 13)
  | write (waddr : BitVec 13) (data : Word)
deriving DecidableEq, Repr

/-- The instruction a command is. -/
def Command.toInstr : Command → Instr
  | .nop => .nop
  | .run => .run
  | .classify => .classify
  | .dcs => .dcs
  | .score k => .score k
  | .filter => .filter
  | .recover => .recover
  | .resolve => .resolve
  | .golayEnc => .golayEnc
  | .golayChk => .golayChk
  | .clrblk => .clrblk

/-- A word in one of the two formats: a 32-bit CMD word or a 46-bit BUS record (R64). Which of the two it is, the
decoder knows from where it reads the word. -/
inductive Encoded where
  | cmd (w : Word)
  | bus (r : Record)
deriving DecidableEq, Repr

end Sys2Proof
end

