-- ==== Sys2Proof/WellFormed.lean ====
section
/-! DEFINITION. When a word spells an instruction (R66, R69), as checks on its fields, independent of the decoder.
An `Instr` needs no check of its own: its operand types are the field widths of R65 and R66. The checks on a
configuration (R10, R11) stand beside the configuration, in Config.lean. -/

namespace Sys2Proof

/-- The reserved fields RSV0 and RSV1 of a CMD word are 0 (R65, R69 item 1). -/
def Encoded.reservedZero (w : Word) : Bool :=
  w.extractLsb' 16 16 == 0#16 && w.extractLsb' 4 4 == 0#4

/-- OP is not in 0xB to 0xF (R69 item 2). -/
def Encoded.opcodeDefined (w : Word) : Bool := decide ((w.extractLsb' 0 4).toNat ≤ 0xA)

/-- ARG8 is 0 unless OP is SCORE's (R69 item 3). -/
def Encoded.arg8Allowed (w : Word) : Bool :=
  w.extractLsb' 0 4 == 0x4#4 || w.extractLsb' 8 8 == 0#8

/-- A read record carries DATA 0 (R66). -/
def Encoded.readDataZero (r : Record) : Bool :=
  r.getLsbD 45 || r.extractLsb' 0 32 == 0#32

/-- The word spells an instruction. -/
def Encoded.wf : Encoded → Bool
  | .cmd w => Encoded.reservedZero w && Encoded.opcodeDefined w && Encoded.arg8Allowed w
  | .bus r => Encoded.readDataZero r

end Sys2Proof
end

