-- ==== Sys2Proof/Decode.lean ====
section
/-! DEFINITION. The decoder of both formats, total and rejecting by name (R64 to R70), and the encoder. -/

namespace Sys2Proof

/-- Why a word spells no instruction. The first three are the illegal CMD words of R69, in its order. -/
inductive DecodeError where
  /-- RSV1 or RSV0 is not 0 (R69 item 1). -/
  | reservedField
  /-- OP in 0xB to 0xF (R69 item 2). -/
  | reservedOpcode
  /-- ARG8 not 0 with OP other than SCORE (R69 item 3). -/
  | argNotZero
  /-- A read record whose DATA is not 0 (R66). -/
  | readDataNotZero
deriving DecidableEq, Repr

/-- OP, bits [3:0] (R65). -/
def cmdOp (w : Word) : BitVec 4 := w.extractLsb' 0 4
/-- RSV0, bits [7:4] (R65). -/
def cmdRsv0 (w : Word) : BitVec 4 := w.extractLsb' 4 4
/-- ARG8, bits [15:8] (R65). -/
def cmdArg8 (w : Word) : BitVec 8 := w.extractLsb' 8 8
/-- RSV1, bits [31:16] (R65). -/
def cmdRsv1 (w : Word) : BitVec 16 := w.extractLsb' 16 16

/-- The command that OP names (R68); none for 0xB to 0xF. -/
def commandOf (op : BitVec 4) (arg8 : BitVec 8) : Option Command :=
  match op.toNat with
  | 0x0 => some .nop
  | 0x1 => some .run
  | 0x2 => some .classify
  | 0x3 => some .dcs
  | 0x4 => some (.score arg8)
  | 0x5 => some .filter
  | 0x6 => some .recover
  | 0x7 => some .resolve
  | 0x8 => some .golayEnc
  | 0x9 => some .golayChk
  | 0xA => some .clrblk
  | _ => none

/-- A CMD word, in the order of R69. -/
def decodeCommand (w : Word) : Except DecodeError Command :=
  if cmdRsv1 w ≠ 0#16 ∨ cmdRsv0 w ≠ 0#4 then .error .reservedField
  else match commandOf (cmdOp w) (cmdArg8 w) with
    | none => .error .reservedOpcode
    | some c => if cmdOp w ≠ 0x4#4 ∧ cmdArg8 w ≠ 0#8 then .error .argNotZero else .ok c

/-- WE, bit [45] of a BUS record (R66). -/
def busWe (r : Record) : Bool := r.getLsbD 45
/-- WADDR, bits [44:32] of a BUS record (R66). -/
def busWaddr (r : Record) : BitVec 13 := r.extractLsb' 32 13
/-- DATA, bits [31:0] of a BUS record (R66). -/
def busWdata (r : Record) : Word := r.extractLsb' 0 32

/-- A BUS record (R66). -/
def decodeRecord (r : Record) : Except DecodeError Instr :=
  if busWe r then .ok (.write (busWaddr r) (busWdata r))
  else if busWdata r = 0#32 then .ok (.read (busWaddr r))
  else .error .readDataNotZero

/-- The instruction a word of either format spells. -/
def decode : Encoded → Except DecodeError Instr
  | .cmd w => (decodeCommand w).map Command.toInstr
  | .bus r => decodeRecord r

/-- The opcode of a command (R68). -/
def Command.opcode : Command → BitVec 4
  | .nop => 0x0#4
  | .run => 0x1#4
  | .classify => 0x2#4
  | .dcs => 0x3#4
  | .score _ => 0x4#4
  | .filter => 0x5#4
  | .recover => 0x6#4
  | .resolve => 0x7#4
  | .golayEnc => 0x8#4
  | .golayChk => 0x9#4
  | .clrblk => 0xA#4

/-- The ARG8 field of a command's word: the tone index of SCORE, 0 for every other opcode (R65). -/
def Command.arg8 : Command → BitVec 8
  | .score k => k
  | .nop | .run | .classify | .dcs | .filter | .recover | .resolve | .golayEnc | .golayChk | .clrblk => 0#8

/-- The one CMD word with these fields (R65). -/
def encodeCommand (c : Command) : Word := 0#16 ++ c.arg8 ++ 0#4 ++ c.opcode

/-- The BUS record with these fields (R66). -/
def encodeRecord (we : Bool) (waddr : BitVec 13) (data : Word) : Record :=
  BitVec.ofBool we ++ waddr ++ data

/-- The word of an instruction. -/
def encode : Instr → Encoded
  | .nop => .cmd (encodeCommand .nop)
  | .run => .cmd (encodeCommand .run)
  | .classify => .cmd (encodeCommand .classify)
  | .dcs => .cmd (encodeCommand .dcs)
  | .score k => .cmd (encodeCommand (.score k))
  | .filter => .cmd (encodeCommand .filter)
  | .recover => .cmd (encodeCommand .recover)
  | .resolve => .cmd (encodeCommand .resolve)
  | .golayEnc => .cmd (encodeCommand .golayEnc)
  | .golayChk => .cmd (encodeCommand .golayChk)
  | .clrblk => .cmd (encodeCommand .clrblk)
  | .read a => .bus (encodeRecord false a 0#32)
  | .write a v => .bus (encodeRecord true a v)

/-- The word that the opcode table's numbering gives: a row of 32 bits is a CMD word, a row of 46 bits (48 in whole
bytes, the two bits above the record 0) a BUS record. Any other length, or a bit above the word, spells nothing. -/
def encodedOf (nbits w : Nat) : Option Encoded :=
  if nbits = 32 ∧ w < 2 ^ 32 then some (.cmd (BitVec.ofNat 32 w))
  else if (nbits = 46 ∨ nbits = 48) ∧ w < 2 ^ 46 then some (.bus (BitVec.ofNat 46 w))
  else none

/-- The instruction this decoder reads from a word numbered as the opcode table numbers it. -/
def decodeTableWord (nbits w : Nat) : Option Instr :=
  match encodedOf nbits w with
  | none => none
  | some e => match decode e with
    | .ok i => some i
    | .error _ => none

end Sys2Proof
end

