-- ==== Sys2Proof/Machine/State.lean ====
section
/-! DEFINITION. The state of the machine as plain data: the register block (R25 to R40), the two RAMs (R41, R42), the
running command and its latched configuration (R44, R45), and the model's own fields: the moves still to come, the
word the latest read returned, the count of free values drawn. -/

namespace Sys2Proof.Machine

/-- Why the machine stops: an engine read of a RAM entry with valid = 0, the only model fault there is, unreachable from
reset (R58, R156). Stopping is safe. Log 11. -/
inductive Fault where
  /-- Raised by the completion of a command that reads the block while some SAMPLE entry is not valid (R58). Safe. -/
  | sampleNotValid
  /-- Raised by the completion of RECOVER while some WAVE entry is not valid (R58). Safe. -/
  | waveNotValid
deriving DecidableEq, Repr

/-- Why a step has no meaning to give. -/
inductive Refusal where
  /-- Raised by an arm of `exec` whose instruction has no meaning yet; no arm is left so. Safe. -/
  | notModelled (mnemonic : String)
  /-- Raised by the step on a 46-bit word that is no BUS record: WE = 0 with DATA not 0 (R66). Safe: it spells no
  transaction. Log 12. -/
  | notATransaction
deriving DecidableEq, Repr

/-- One move of the outside world or of the scheduler, in the one total order of R59. Log 1, log 3, log 14. -/
inductive Event where
  /-- The host presents a word: a BUS record, or a CMD word at the CMD register (the `CMD` line of R71). -/
  | word (e : Encoded)
  /-- The host makes a raw access that may be misaligned or narrow, which has no BUS record (R52, R66). -/
  | access (we : Bool) (offset : BitVec 15) (size : Nat) (data : Word)
  /-- The engine takes its completion step here, if it is enabled (R122). -/
  | complete
  /-- The reset input is asserted and released (R157). -/
  | reset
deriving DecidableEq, Repr

/-- The contents of the two RAMs as bytes at their offsets in the host address space (R50): a list in one canonical
form, addresses strictly rising, no byte equal to what an unlisted address reads as. Log 20. -/
abbrev Memory := List Host.Cell

/-- Everything the engine holds, and the model's own input and output. -/
structure State where
  /-- CTRL (R27). -/
  ctrl : Word
  /-- STATUS (R28); its bit 0 is the mode of R44. -/
  status : Word
  /-- ARG (R30). -/
  arg : Word
  /-- RESULT (R31). -/
  result : Word
  /-- TONE_RESULT (R32). -/
  toneResult : Word
  /-- TONE_MAX (R33). -/
  toneMax : Word
  /-- TONE_AVG (R34). -/
  toneAvg : Word
  /-- TONE_MAXIDX (R35). -/
  toneMaxIdx : Word
  /-- DCS_RESULT (R36). -/
  dcsResult : Word
  /-- DCS_RAW (R37). -/
  dcsRaw : Word
  /-- PEAK_LOW, read as signed (R38). -/
  peakLow : Word
  /-- PEAK_HIGH, read as signed (R38). -/
  peakHigh : Word
  /-- IDLE_TIMEOUT (R39). -/
  idleTimeout : Word
  /-- SWEEP_PHASE (R39). -/
  sweepPhase : Word
  /-- SCORE[0..49] (R40). -/
  scores : Vector Word 50
  /-- `SAMPLE[j].raw` and `WAVE[k].value` (R41, R42), as bytes at the offsets of their windows. -/
  mem : Memory
  /-- `SAMPLE[j].valid` is bit j (R41). -/
  sampleValid : BitVec 4000
  /-- `WAVE[k].valid` is bit k, for k < L (R42). -/
  waveValid : BitVec 500
  /-- The accepted command: op and arg8 (R44). Read only while BUSY. -/
  pending : Command
  /-- The latched `cfg.debug` (R45). -/
  cfgDebug : Bool
  /-- The latched `cfg.invert` (R45). -/
  cfgInvert : Bool
  /-- The latched `cfg.alias` (R45): true for Los Altos. -/
  cfgAlias : Bool
  /-- The latched `cfg.arg` (R45). -/
  cfgArg : Word
  /-- The model's own: the moves still to come, first first. Log 1. -/
  agenda : List Event
  /-- The model's own: the word the latest host read returned. Log 4. -/
  busData : Word
  /-- The model's own: how many free values have been drawn. Log 5. -/
  draws : Nat
deriving DecidableEq, Repr

/-- The machine right after reset (R157). The RAM contents, `pending` and the latched configuration have no value in
the spec; see log 7 and log 8. -/
def State.reset : State where
  ctrl := 0x00000004#32
  status := 0x00000000#32
  arg := 0#32
  result := 0#32
  toneResult := 0#32
  toneMax := 0#32
  toneAvg := 0#32
  toneMaxIdx := 0#32
  dcsResult := 0#32
  dcsRaw := 0#32
  peakLow := 0#32
  peakHigh := 0#32
  idleTimeout := Config.timeoutDefault
  sweepPhase := 0#32
  scores := Vector.replicate 50 0#32
  mem := []
  sampleValid := 0#4000
  waveValid := 0#500
  pending := .nop
  cfgDebug := false
  cfgInvert := false
  cfgAlias := false
  cfgArg := 0#32
  agenda := []
  busData := 0#32
  draws := 0

end Sys2Proof.Machine
end

