-- ==== Sys2Proof/Machine/Flags.lean ====
section
/-! DEFINITION. The flags of the engine: the STATUS and CTRL bits (R27, R28), the five errors with their codes and
bits (R136), and the interrupt line (R148). -/

namespace Sys2Proof.Machine

/-- The five errors (R136). -/
inductive EngineError where
  | busy | command | operand | incomplete | address
deriving DecidableEq, Repr

/-- The code an error leaves in LAST_ERR (R136). -/
def EngineError.code : EngineError → BitVec 4
  | .busy => 1#4
  | .command => 2#4
  | .operand => 3#4
  | .incomplete => 4#4
  | .address => 5#4

/-- The sticky STATUS bit of an error, as a mask (R136): ERR_BUSY [2] to ERR_ADDR [6]. -/
def EngineError.mask : EngineError → Word
  | .busy => 0x04#32
  | .command => 0x08#32
  | .operand => 0x10#32
  | .incomplete => 0x20#32
  | .address => 0x40#32

/-- CTRL's defined fields (R27). -/
def ctrlMask : Word := 0x0000000F#32
/-- STATUS's defined fields: bit 7 and bits [31:16] are reserved (R28). -/
def statusMask : Word := 0x0000FF7F#32
/-- The W1C bits of STATUS: DONE and the five error bits, [6:1] (R28). -/
def w1cMask : Word := 0x0000007E#32
def statusBusyMask : Word := 0x00000001#32
def statusDoneMask : Word := 0x00000002#32
def lastErrMask : Word := 0x00000F00#32
def lastOpMask : Word := 0x0000F000#32

/-- STATUS.BUSY, which shows the mode: 1 is BUSY, 0 is IDLE (R28, R44). -/
def State.busy (s : State) : Bool := s.status.getLsbD 0
/-- STATUS.DONE (R28). -/
def State.done (s : State) : Bool := s.status.getLsbD 1
/-- STATUS.LAST_ERR (R28). -/
def State.lastErr (s : State) : BitVec 4 := s.status.extractLsb' 8 4
/-- STATUS.LAST_OP (R28). -/
def State.lastOp (s : State) : BitVec 4 := s.status.extractLsb' 12 4
/-- The sticky STATUS bit of an error is set (R136). -/
def State.hasError (s : State) (e : EngineError) : Bool := s.status &&& e.mask != 0#32

/-- CTRL.DEBUG (R27). -/
def State.ctrlDebug (s : State) : Bool := s.ctrl.getLsbD 0
/-- CTRL.INVERT (R27). -/
def State.ctrlInvert (s : State) : Bool := s.ctrl.getLsbD 1
/-- CTRL.ALIAS_MODE (R27): true for Los Altos. -/
def State.ctrlAlias (s : State) : Bool := s.ctrl.getLsbD 2
/-- CTRL.IRQ_EN (R27). -/
def State.irqEnabled (s : State) : Bool := s.ctrl.getLsbD 3

/-- The level of `irq`: IRQ_EN and (DONE or any error bit) (R47, R148). -/
def State.irq (s : State) : Bool := s.irqEnabled && (s.status &&& w1cMask != 0#32)

/-- STATUS after an error: its bit set, LAST_ERR its code (R137). -/
def statusRaised (e : EngineError) (st : Word) : Word :=
  ((st ||| e.mask) &&& ~~~lastErrMask) ||| (e.code.setWidth 32 <<< 8)

/-- STATUS after a host write of `v`: a 1 in a W1C bit clears it (R28). -/
def statusCleared (v st : Word) : Word := st &&& ~~~(v &&& w1cMask)

/-- STATUS after an acceptance: BUSY set, DONE cleared (R121). -/
def statusAccepted (st : Word) : Word := (st ||| statusBusyMask) &&& ~~~statusDoneMask

/-- STATUS after a completion: LAST_OP the opcode, BUSY cleared, DONE set (R122). -/
def statusCompleted (op : BitVec 4) (st : Word) : Word :=
  ((st &&& ~~~(lastOpMask ||| statusBusyMask)) ||| statusDoneMask) ||| (op.setWidth 32 <<< 12)

end Sys2Proof.Machine
end

