-- ==== Sys2Proof/Machine/Ops.lean ====
section
/-! DEFINITION. The named operations: memory bytes and words (R51), the two RAMs (R41, R42, R56, R57), the address map
(R50), the registers (R25 to R40), raising an error and clearing it (R137, R146), acceptance (R121) and completion
(R122) of a command. -/

namespace Sys2Proof.Machine

/-! Memory. -/

/-- What a byte nothing has written reads as. The spec leaves the RAM contents after reset unspecified and no rule
reads them (R41, R42). Log 7. -/
def unlistedByte : Byte := 0#8

/-- The byte at an address. -/
def Memory.readByte : Memory → Nat → Byte
  | [], _ => unlistedByte
  | (a', b) :: rest, a => if a' = a then b else Memory.readByte rest a

/-- Write one byte, keeping the canonical form. -/
def Memory.writeByte : Memory → Nat → Byte → Memory
  | [], a, b => if b = unlistedByte then [] else [(a, b)]
  | (a', b') :: rest, a, b =>
    if a < a' then (if b = unlistedByte then (a', b') :: rest else (a, b) :: (a', b') :: rest)
    else if a' = a then (if b = unlistedByte then rest else (a, b) :: rest)
    else (a', b') :: Memory.writeByte rest a b

/-- The canonical form from an address on: addresses strictly rising, no byte that an unlisted address reads as. -/
def Memory.wfFrom : Nat → Memory → Bool
  | _, [] => true
  | lo, (a, b) :: rest => decide (lo ≤ a) && decide (b ≠ unlistedByte) && Memory.wfFrom (a + 1) rest

/-- The memory is in its one canonical form. -/
def Memory.wf (m : Memory) : Bool := Memory.wfFrom 0 m

/-- The bits [8b+7:8b] that lane b carries (R51). -/
def byteLane (w : Word) (b : Nat) : Byte := w.extractLsb' (8 * b) 8

/-- The word whose lane b is the byte at a + b (R51). -/
def Memory.readWord (m : Memory) (a : Nat) : Word :=
  m.readByte (a + 3) ++ m.readByte (a + 2) ++ m.readByte (a + 1) ++ m.readByte a

/-- Write a word, lane b to a + b (R51). -/
def Memory.writeWord (m : Memory) (a : Nat) (w : Word) : Memory :=
  (((m.writeByte a (byteLane w 0)).writeByte (a + 1) (byteLane w 1)).writeByte (a + 2) (byteLane w 2)).writeByte
    (a + 3) (byteLane w 3)

/-! The two RAMs. -/

/-- The offset of `SAMPLE[j]` (R50). -/
def sampleOffset (j : Nat) : Nat := 0x4000 + 4 * j
/-- The offset of `WAVE[k]` (R50). -/
def waveOffset (k : Nat) : Nat := 0x1000 + 4 * k

/-- `SAMPLE[j].raw` (R41). -/
def State.sampleRaw (s : State) (j : Nat) : BitVec 12 := (s.mem.readWord (sampleOffset j)).setWidth 12
/-- `WAVE[k].value`, as the signed value it is (R42). -/
def State.waveValue (s : State) (k : Nat) : Int := (s.mem.readWord (waveOffset k)).toInt

/-- `SAMPLE[j].raw <- raw; SAMPLE[j].valid <- 1` (R56). -/
def State.setSample (s : State) (j : Nat) (raw : BitVec 12) : State :=
  { s with
    mem := s.mem.writeWord (sampleOffset j) (raw.setWidth 32)
    sampleValid := s.sampleValid ||| BitVec.twoPow 4000 j }

/-- `WAVE[k].value <- sext_32(v); WAVE[k].valid <- 1` (R57). -/
def State.setWave (s : State) (k : Nat) (v : Word) : State :=
  { s with
    mem := s.mem.writeWord (waveOffset k) v
    waveValid := s.waveValid ||| BitVec.twoPow 500 k }

/-- `blockComplete()`: every SAMPLE entry is valid (R120). -/
def State.blockComplete (s : State) : Bool := s.sampleValid == BitVec.allOnes 4000
/-- `waveComplete()`: every WAVE entry below L is valid (R120). -/
def State.waveComplete (s : State) : Bool :=
  (List.range Config.hw.params.waveLen).all fun k => s.waveValid.getLsbD k

/-! The address map. -/

/-- The registers below offset 0x040 (R25). -/
inductive Reg where
  | id | ctrl | status | cmd | arg | result | toneResult | toneMax | toneAvg | toneMaxIdx | dcsResult | dcsRaw
  | peakLow | peakHigh | idleTimeout | sweepPhase
deriving DecidableEq, Repr

/-- What an offset names (R50). -/
inductive Target where
  | reg (r : Reg)
  | score (k : Fin 50)
  | wave (k : Nat)
  | sample (j : Nat)
deriving DecidableEq, Repr

/-- The register at each of the sixteen word offsets 0x000 to 0x03C (R25). -/
def regOfIndex (n : Nat) : Option Reg :=
  [Reg.id, .ctrl, .status, .cmd, .arg, .result, .toneResult, .toneMax, .toneAvg, .toneMaxIdx, .dcsResult, .dcsRaw,
    .peakLow, .peakHigh, .idleTimeout, .sweepPhase][n]?

/-- What the aligned byte offset names, none where it is unmapped; L is the waveform length (R50, R53). The WAVE window
ends below 0x4000, because L is at most 500 (R50). -/
def targetOf (waveLen off : Nat) : Option Target :=
  if off < 0x40 then (regOfIndex (off / 4)).map .reg
  else if h : off < 0x108 then some (.score ⟨(off - 0x40) / 4, by omega⟩)
  else if off < 0x1000 then none
  else if off < 0x4000 then
    if off < 0x1000 + 4 * waveLen then some (.wave ((off - 0x1000) / 4)) else none
  else if off < 0x4000 + 4 * Config.blockLen then some (.sample ((off - 0x4000) / 4))
  else none

/-- The byte offset of a word offset (R66). -/
def byteOffset (waddr : BitVec 13) : Nat := 4 * waddr.toNat

/-! Raising an error and clearing it. -/

/-- `raise E`: the sticky bit, LAST_ERR, and nothing else; the transaction is abandoned (R137). This is all there is
of taking an exception (R145). -/
def State.raise (e : EngineError) (s : State) : State := { s with status := statusRaised e s.status }

/-- A host write of STATUS: W1C, the only return from an error; LAST_ERR and BUSY stay (R28, R146). -/
def State.clearStatus (v : Word) (s : State) : State := { s with status := statusCleared v s.status }

/-! Commands. -/

/-- The commands that consume the block (R120). -/
def needsBlock : Command → Bool
  | .score _ | .classify | .filter | .dcs | .run => true
  | .nop | .recover | .resolve | .golayEnc | .golayChk | .clrblk => false

/-- The command that consumes the waveform in WAVE (R120). -/
def needsWave : Command → Bool
  | .recover => true
  | .nop | .run | .classify | .dcs | .score _ | .filter | .resolve | .golayEnc | .golayChk | .clrblk => false

/-- The commands that write WAVE: while one runs, a read of the WAVE window is a draw (R54). -/
def writesWave : Command → Bool
  | .filter | .dcs | .run => true
  | .nop | .classify | .score _ | .recover | .resolve | .golayEnc | .golayChk | .clrblk => false

/-- `op = SCORE and arg8 >= NUM_TONES` (R121). -/
def operandOutOfRange : Command → Bool
  | .score k => decide (Config.numTones ≤ k.toNat)
  | .nop | .run | .classify | .dcs | .filter | .recover | .resolve | .golayEnc | .golayChk | .clrblk => false

/-- The acceptance of a legal command in mode IDLE, from the operand check on: the errors of R140 and R141, else the
latched configuration, the pending command, BUSY set and DONE cleared (R45, R121). -/
def State.accept (c : Command) (s : State) : State :=
  if operandOutOfRange c then s.raise .operand
  else if needsBlock c && !s.blockComplete then s.raise .incomplete
  else if needsWave c && !s.waveComplete then s.raise .incomplete
  else { s with
    cfgDebug := s.ctrlDebug
    cfgInvert := s.ctrlInvert
    cfgAlias := s.ctrlAlias
    cfgArg := s.arg
    pending := c
    status := statusAccepted s.status }

/-- A host write of word v to CMD, the checks in the order of R121. -/
def State.issue (v : Word) (s : State) : State :=
  if s.busy then s.raise .busy
  else match decodeCommand v with
    | .error _ => s.raise .command
    | .ok c => s.accept c

/-- The end of every completion: LAST_OP, mode IDLE, DONE (R122). -/
def State.finish (c : Command) (s : State) : State := { s with status := statusCompleted c.opcode s.status }

/-- The invalid RAM entry a command's completion would read; none in every state that acceptance leaves (R58, R156).
Log 11. -/
def completionFault (c : Command) (s : State) : Option Fault :=
  if needsBlock c && !s.blockComplete then some .sampleNotValid
  else if needsWave c && !s.waveComplete then some .waveNotValid
  else none

/-- A command word at the engine, with the commit its completion makes. In mode IDLE the command is issued: its
acceptance (R121). In mode BUSY with this command pending the engine completes it: the commit and the end of R122 in
one step. In mode BUSY with another command pending the word is turned away (R138). Log 2. -/
def runCommand (c : Command) (commit : State → State) (s : State) : Host.Outcome State Fault Refusal :=
  if s.busy then
    if s.pending = c then
      match completionFault c s with
      | some f => .fault f
      | none => .next ((commit s).finish c)
    else .next (s.raise .busy)
  else .next (s.accept c)

/-! Host reads and writes. -/

/-- The stored word of a register: the constant CORE_ID for ID, 0 for CMD (R25, R26, R29). -/
def State.regStored (s : State) : Reg → Word
  | .id => Config.hw.params.coreId
  | .ctrl => s.ctrl
  | .status => s.status
  | .cmd => 0#32
  | .arg => s.arg
  | .result => s.result
  | .toneResult => s.toneResult
  | .toneMax => s.toneMax
  | .toneAvg => s.toneAvg
  | .toneMaxIdx => s.toneMaxIdx
  | .dcsResult => s.dcsResult
  | .dcsRaw => s.dcsRaw
  | .peakLow => s.peakLow
  | .peakHigh => s.peakHigh
  | .idleTimeout => s.idleTimeout
  | .sweepPhase => s.sweepPhase

/-- The bits of a register that are not reserved (R25): a reserved bit reads 0. -/
def regMask : Reg → Word
  | .ctrl => ctrlMask
  | .status => statusMask
  | .toneResult => 0x8000003F#32
  | .toneMaxIdx => 0x0000003F#32
  | .dcsResult => 0xBFFFFFFF#32
  | .dcsRaw => 0x807FFFFF#32
  | .id | .cmd | .arg | .result | .toneMax | .toneAvg | .peakLow | .peakHigh | .idleTimeout | .sweepPhase =>
    0xFFFFFFFF#32

/-- What a host read of a register returns (R54). -/
def State.regRead (s : State) (r : Reg) : Word := s.regStored r &&& regMask r

/-- The read format of a SAMPLE entry (R56). -/
def State.sampleRead (s : State) (j : Nat) : Word :=
  if s.sampleValid.getLsbD j then 0x80000000#32 ||| (s.sampleRaw j).setWidth 32 else 0#32

/-- The read format of a WAVE entry outside a command that writes WAVE (R57). -/
def State.waveRead (s : State) (k : Nat) : Word :=
  if s.waveValid.getLsbD k then s.mem.readWord (waveOffset k) else 0#32

/-- A running command writes WAVE, so that a read of its window is a draw (R54, R57). -/
def State.waveIsDraw (s : State) : Bool := s.busy && writesWave s.pending

/-- A host read of a mapped word: the value goes to the host, and the engine's state stays (R54). -/
def State.readTarget (s : State) : Target → State
  | .reg r => { s with busData := s.regRead r }
  | .score k => { s with busData := s.scores[k] }
  | .sample j => { s with busData := s.sampleRead j }
  | .wave k =>
    if s.waveIsDraw then { s with busData := Config.waveDraw s.draws, draws := s.draws + 1 }
    else { s with busData := s.waveRead k }

/-- A host write of a mapped word (R55, R162). -/
def State.writeTarget (s : State) (v : Word) : Target → State
  | .reg .ctrl => { s with ctrl := v &&& ctrlMask }
  | .reg .status => s.clearStatus v
  | .reg .cmd => s.issue v
  | .reg .arg => { s with arg := v }
  | .reg .peakLow => if s.busy then s.raise .busy else { s with peakLow := v }
  | .reg .peakHigh => if s.busy then s.raise .busy else { s with peakHigh := v }
  | .reg .id | .reg .result | .reg .toneResult | .reg .toneMax | .reg .toneAvg | .reg .toneMaxIdx
  | .reg .dcsResult | .reg .dcsRaw | .reg .idleTimeout | .reg .sweepPhase => s
  | .score _ => s
  | .sample j => if s.busy then s.raise .busy else s.setSample j (v.setWidth 12)
  | .wave k => if s.busy then s.raise .busy else s.setWave k v

/-- A refused read: AddressError, and the value 0 (R52, R53, R142). -/
def State.refusedRead (s : State) : State := { s.raise .address with busData := 0#32 }

/-- The reset input: every engine field at its reset value, a running command abandoned (R157). The moves still to
come, what the host has read and the count of draws are not the engine's. Log 15. -/
def State.resetPulse (s : State) : State :=
  { State.reset with agenda := s.agenda, busData := s.busData, draws := s.draws }

end Sys2Proof.Machine
end

