-- ==== Sys2Proof/Machine/Operands.lean ====
section
/-! DEFINITION. The operand forms: the tables (R8), the notation of R14 to R17, the centred block (R20, R21), the
waveform operand (R93), and the operands a command takes from its latched configuration (R45, R67). -/

namespace Sys2Proof

/-- `SF[k]`; a free value where the table has no entry. Log 11. -/
def Config.Params.sfWord (p : Config.Params) (k : Nat) : Nat := p.sf.getD k (Config.sfBeyond k)
/-- `SIN[a]`. -/
def Config.Params.sinAt (p : Config.Params) (a : Nat) : Int := p.sin.getD a 0
/-- `COS[a]`. -/
def Config.Params.cosAt (p : Config.Params) (a : Nat) : Int := p.cos.getD a 0
/-- `GOLAY_ROW[i]` as the 11-bit row it is. -/
def Config.Params.row (p : Config.Params) (i : Nat) : BitVec 11 := BitVec.ofNat 11 (p.golayRow.getD i 0)
/-- `ALIAS_STD[k]` or `ALIAS_LA[k]`: `la` is the alias mode, true for Los Altos (R27, R114). -/
def Config.Params.aliasEntry (p : Config.Params) (la : Bool) (k : Nat) : BitVec 16 :=
  BitVec.ofNat 16 ((if la then p.aliasLa else p.aliasStd).getD k 0)

end Sys2Proof

namespace Sys2Proof.Machine

/-- `a >> k`, the shift that floors (R14). -/
def floorShift (a : Int) (k : Nat) : Int := a >>> k

/-- `tdiv(a, b)`, the quotient truncated toward zero (R15). -/
def tdiv (a b : Int) : Int := Int.tdiv a b

/-- `rotr23(x)`, a rotate right by one bit within 23 bits (R16). -/
def rotr23 (x : BitVec 23) : BitVec 23 := (x >>> 1) ||| ((x &&& 1#23) <<< 22)

/-- `to32(x)`, the two's-complement pattern (R17). -/
def to32 (x : Int) : Word := BitVec.ofInt 32 x

/-- `sext_32(v)`, the signed value of a word (R17). -/
def sext32 (v : Word) : Int := v.toInt

/-- `centre(raw) = (raw >> 2) - 512` (R20). -/
def centre (raw : BitVec 12) : Int := floorShift (raw.toNat : Int) 2 - 512

/-- `s(j)`, the centred value of the j-th sample (R21). -/
def State.block (s : State) (j : Nat) : Int := centre (s.sampleRaw j)

/-- `data12 = cfg.arg[11:0]`, the operand of GOLAY_ENC (R67). -/
def State.data12 (s : State) : BitVec 12 := s.cfgArg.extractLsb' 0 12

/-- `cfg.arg[22:0]`, the operand of GOLAY_CHK and the word RESOLVE resolves (R67). -/
def State.word23 (s : State) : BitVec 23 := s.cfgArg.extractLsb' 0 23

/-- `invMask`, from the latched `cfg.invert` (R45). -/
def State.invMask (s : State) : BitVec 23 := if s.cfgInvert then Config.invertMask else 0#23

end Sys2Proof.Machine
end

