-- ==== Sys2Proof/Machine/Bus.lean ====
section
/-! DEFINITION. The host transactions READ (R54) and WRITE (R55), and the raw accesses that have no BUS record (R52). -/

namespace Sys2Proof.Machine

/-- What a word offset names on this hardware (R50). -/
def busTarget (waddr : BitVec 13) : Option Target := targetOf Config.hw.params.waveLen (byteOffset waddr)

/-- READ: `MemRead` of the word at an admitted offset; AddressError and 0 where it is unmapped (R53, R54). -/
def execRead (waddr : BitVec 13) (s : State) : Host.Outcome State Fault Refusal :=
  match busTarget waddr with
  | none => .next s.refusedRead
  | some t => .next (s.readTarget t)

/-- WRITE: `MemWrite` of the word at an admitted offset; AddressError where it is unmapped (R53, R55). -/
def execWrite (waddr : BitVec 13) (data : Word) (s : State) : Host.Outcome State Fault Refusal :=
  match busTarget waddr with
  | none => .next (s.raise .address)
  | some t => .next (s.writeTarget data t)

/-- A raw access is admitted: its offset is a multiple of 4 and its size is 4 bytes (R52). -/
def admitted (offset : BitVec 15) (size : Nat) : Bool := decide (offset.toNat % 4 = 0 ∧ size = 4)

/-- The BUS instruction an admitted raw access spells (R66). -/
def accessInstr (we : Bool) (offset : BitVec 15) (data : Word) : Instr :=
  if we then .write (offset.extractLsb' 2 13) data else .read (offset.extractLsb' 2 13)

/-- A refused raw access: AddressError; a read returns 0, a write changes nothing else (R52, R142). -/
def State.refusedAccess (we : Bool) (s : State) : State := if we then s.raise .address else s.refusedRead

/-- The platform address of an offset (R49). -/
def platformAddress (offset : BitVec 15) : Nat := Config.base + offset.toNat

end Sys2Proof.Machine
end

