-- ==== Sys2Proof/Machine/Fir.lean ====
section
/-! DEFINITION. The FIR symmetric decimator: the filter (R86), its impulse response (R88), the peaks (R90), the filter
commit (R91) and the command FILTER (R92). -/

namespace Sys2Proof.Machine

/-- `x(m)`: symmetric pairs added before the multiplication, and the centre tap (R86). -/
def fir (p : Config.Params) (blk : Nat → Int) (m : Nat) : Int :=
  ((List.range (p.t - 1)).map fun j =>
    p.tap j * (blk (Config.decim * m + j) + blk (Config.decim * m + 2 * (p.t - 1) - j))).sum
  + p.tap (p.t - 1) * blk (Config.decim * m + p.t - 1)

/-- The impulse response `h[n] = TAPS[min(n, 2T - 2 - n)]` (R88). -/
def impulse (p : Config.Params) (n : Nat) : Int := p.tap (min n (2 * p.t - 2 - n))

/-- The same filter as a convolution with its impulse response (R88). -/
def firImpulse (p : Config.Params) (blk : Nat → Int) (m : Nat) : Int :=
  ((List.range (2 * p.t - 1)).map fun n => impulse p n * blk (Config.decim * m + n)).sum

/-- The least of x(0), ..., x(n) (R90). -/
def leastUpTo (x : Nat → Int) : Nat → Int
  | 0 => x 0
  | n + 1 => min (leastUpTo x n) (x (n + 1))

/-- The greatest of x(0), ..., x(n) (R90). -/
def greatestUpTo (x : Nat → Int) : Nat → Int
  | 0 => x 0
  | n + 1 => max (greatestUpTo x n) (x (n + 1))

/-- `peakLow`, over all L outputs (R90). -/
def firPeakLow (p : Config.Params) (blk : Nat → Int) : Int := leastUpTo (fir p blk) (p.waveLen - 1)

/-- `peakHigh`, over all L outputs (R90). -/
def firPeakHigh (p : Config.Params) (blk : Nat → Int) : Int := greatestUpTo (fir p blk) (p.waveLen - 1)

/-- `WAVE[m].value <- x(m); WAVE[m].valid <- 1` for every m < n (R91). -/
def storeWave (x : Nat → Int) (n : Nat) (s : State) : State :=
  (List.range n).foldl (fun acc m => acc.setWave m (to32 (x m))) s

/-- The filter commit at the completion of FILTER, DCS or RUN (R91). -/
def commitFir (p : Config.Params) (s : State) : State :=
  { storeWave (fir p s.block) p.waveLen s with
    peakLow := to32 (firPeakLow p s.block)
    peakHigh := to32 (firPeakHigh p s.block) }

/-- FILTER's commit (R92). -/
def commitFilter (s : State) : State := commitFir Config.hw.params s

/-- FILTER (R92). -/
def execFilter (s : State) : Host.Outcome State Fault Refusal := runCommand .filter commitFilter s

end Sys2Proof.Machine
end

