-- ==== Sys2Proof/Machine/Rotator.lean ====
section
/-! DEFINITION. The frame-sync rotator and alias resolver: the search (R114) and the command RESOLVE (R119). -/

namespace Sys2Proof.Machine

/-- What a search that matches returns: the rotation count, the key, the canonical code (R114). -/
structure Resolved where
  rot : Nat
  key : BitVec 9
  code : BitVec 16
deriving DecidableEq, Repr

/-- `(r & SYNC_MASK) = SYNC_VAL`: bits 11..9 are 0b100 (R114). -/
def hasMarker (r : BitVec 23) : Bool := r &&& Config.syncMask == Config.syncVal

/-- The search with `fuel` rotations left, the next one being the k-th (R114). -/
def resolveFrom (p : Config.Params) (la : Bool) : Nat → Nat → BitVec 23 → Option Resolved
  | 0, _, _ => none
  | fuel + 1, k, r =>
    if hasMarker (rotr23 r) then
      some { rot := k, key := (rotr23 r).setWidth 9, code := p.aliasEntry la ((rotr23 r).setWidth 9).toNat }
    else resolveFrom p la fuel (k + 1) (rotr23 r)

/-- `resolve(raw, mode)`; `la` is the alias mode, true for Los Altos (R114). -/
def resolve (p : Config.Params) (la : Bool) (raw : BitVec 23) : Option Resolved :=
  resolveFrom p la Config.maxRot 1 raw

/-- The DCS_RESULT layout: FOUND, ROT, KEY, CODE, or 0 (R36, R119, R126). -/
def packResolved : Option Resolved → Word
  | none => 0#32
  | some r => 0x80000000#32 ||| (BitVec.ofNat 32 r.rot <<< 25) ||| (r.key.setWidth 32 <<< 16) ||| r.code.setWidth 32

/-- RESOLVE's commit: `RESULT` in the DCS_RESULT layout (R119). -/
def commitResolve (s : State) : State :=
  { s with result := packResolved (resolve Config.hw.params s.cfgAlias s.word23) }

/-- RESOLVE (R119). -/
def execResolve (s : State) : Host.Outcome State Fault Refusal := runCommand .resolve commitResolve s

end Sys2Proof.Machine
end

