-- ==== Sys2Proof/Machine/Golay.lean ====
section
/-! DEFINITION. The Golay parity checker: the code (R108, R109) and the commands GOLAY_ENC (R112) and GOLAY_CHK (R113). -/

namespace Sys2Proof.Machine

/-- The parity accumulator `p`: the XOR of the rows of the data bits that are set (R108). -/
def golayParity (p : Config.Params) (d : BitVec 12) : BitVec 11 :=
  (List.range 12).foldl (fun acc b => if d.getLsbD b then acc ^^^ p.row b else acc) 0#11

/-- `encode(d) = (p << 12) | (d & 0xFFF)` (R108). -/
def golayEncode (p : Config.Params) (d : BitVec 12) : BitVec 23 :=
  ((golayParity p d).setWidth 23 <<< 12) ||| d.setWidth 23

/-- `valid(w) = (encode(w & 0xFFF) = w)` (R109). -/
def golayValid (p : Config.Params) (w : BitVec 23) : Bool := golayEncode p (w.setWidth 12) == w

/-- GOLAY_ENC's commit: `RESULT <- encode(cfg.arg[11:0])` (R112). -/
def commitGolayEnc (s : State) : State :=
  { s with result := (golayEncode Config.hw.params s.data12).setWidth 32 }

/-- GOLAY_CHK's commit: `RESULT <- 1 if valid(cfg.arg[22:0]) else 0` (R113). -/
def commitGolayChk (s : State) : State :=
  { s with result := if golayValid Config.hw.params s.word23 then 1#32 else 0#32 }

/-- GOLAY_ENC (R112). -/
def execGolayEnc (s : State) : Host.Outcome State Fault Refusal := runCommand .golayEnc commitGolayEnc s

/-- GOLAY_CHK (R113). -/
def execGolayChk (s : State) : Host.Outcome State Fault Refusal := runCommand .golayChk commitGolayChk s

end Sys2Proof.Machine
end

