-- ==== Sys2Proof/Machine/Sync.lean ====
section
/-! DEFINITION. The bit-clock-recovery machine: thresholds (R94), the extremum test (R96), the algorithm (R98), the
same as a transition table (R99), the validation (R100) and the command RECOVER (R107). -/

namespace Sys2Proof.Machine

/-- `tdiv(peak * 5, 16)`: the multiplication comes first (R94). -/
def threshold (peak : Int) : Int := tdiv (peak * Config.thrNum) Config.thrDen

/-- What one run of the synchroniser reads: the waveform, the two thresholds, and the check of R100. -/
structure SyncInput where
  wave : Nat → Int
  low : Int
  high : Int
  check : BitVec 31 → Bool

/-- The working state of one run (R46, R95). -/
structure SyncState where
  i : Nat
  count : Nat
  word : BitVec 31
  bits : Nat
  bit : Bool
  prevBaseline : Int
deriving DecidableEq, Repr

/-- The initial working state (R95). -/
def syncInit : SyncState :=
  { i := Config.syncStart, count := 0, word := 0#31, bits := 0, bit := false, prevBaseline := 0 }

/-- The peak (mark) case of `qual(k)` (R96). -/
def qualMark (x : SyncInput) (base : Int) (k : Nat) : Bool :=
  decide (x.high < x.wave k ∧ x.high < x.wave k - base ∧ x.wave (k - 1) ≤ x.wave k ∧ x.wave (k + 1) < x.wave k)

/-- The trough (space) case of `qual(k)` (R96). -/
def qualSpace (x : SyncInput) (base : Int) (k : Nat) : Bool :=
  decide (x.wave k < x.low ∧ x.wave k - base < x.low ∧ x.wave k ≤ x.wave (k - 1) ∧ x.wave k < x.wave (k + 1))

/-- `qual(k)` against the current baseline: true for a mark, false for a space (R96). -/
def qual (x : SyncInput) (base : Int) (k : Nat) : Option Bool :=
  if qualMark x base k then some true else if qualSpace x base k then some false else none

/-- The edge-search window: `(count mod 8) in EDGE_PHASES or count = 0` (R98). -/
def inWindow (count : Nat) : Bool := Config.edgePhases.contains (count % Config.cell) || count == 0

/-- SEEK_EARLY: the current-sample edge search. The flag says whether an edge was taken (R98). -/
def seekEarly (x : SyncInput) (st : SyncState) : SyncState × Bool :=
  if inWindow st.count then
    match qual x st.prevBaseline st.i with
    | some b => ({ st with bit := b, count := 0 }, true)
    | none => (st, false)
  else (st, false)

/-- SEEK_ONTIME: the check one sample ahead (R98). -/
def seekOntime (x : SyncInput) (st : SyncState) : SyncState :=
  match qual x st.prevBaseline (st.i + 1) with
  | some b => { st with i := st.i + 1, bit := b, count := 0 }
  | none => st

/-- BIT_COMPLETE: shift the bit into the top, take the new baseline, count the completion (R98). -/
def bitComplete (x : SyncInput) (st : SyncState) : SyncState :=
  { st with
    word := (BitVec.ofBool st.bit).setWidth 31 <<< 30 ||| st.word >>> 1
    prevBaseline := x.wave st.i
    bits := st.bits + 1 }

/-- The register has filled and the word passes the check (R98, R101). -/
def syncAccepts (x : SyncInput) (st : SyncState) : Bool := decide (Config.syncBits ≤ st.bits) && x.check st.word

/-- ADVANCE (R98). -/
def syncAdvance (st : SyncState) : SyncState := { st with count := st.count + 1, i := st.i + 1 }

/-- The two edge searches of one pass, up to the bit completion (R98). -/
def seekEdges (x : SyncInput) (st : SyncState) : SyncState :=
  let e := seekEarly x st
  if !e.2 && e.1.count % Config.cell == 0 then seekOntime x e.1 else e.1

/-- The state of one pass after its bit completion, if it has one (R98). -/
def syncPass (x : SyncInput) (st : SyncState) : SyncState :=
  let e := seekEdges x st
  if e.count % Config.cell = 0 then bitComplete x e else e

/-- The pass ends the run: its bit completion leaves a word that passes (R98, R102). -/
def syncPassFinds (x : SyncInput) (st : SyncState) : Bool :=
  (seekEdges x st).count % Config.cell == 0 && syncAccepts x (syncPass x st)

/-- The loop, with `fuel` passes left: the state at the first success, or none (R98). -/
def syncLoop (x : SyncInput) : Nat → SyncState → Option SyncState
  | 0, _ => none
  | fuel + 1, st =>
    if st.i ≤ Config.syncEnd then
      if syncPassFinds x st then some (syncPass x st)
      else syncLoop x fuel (syncAdvance (syncPass x st))
    else none

/-- The most passes there can be: each increases the read index (R104). -/
def syncMaxPasses : Nat := Config.syncEnd - Config.syncStart + 1

/-- The working state after `n` passes, whatever they find (R104). -/
def syncAfter (x : SyncInput) : Nat → SyncState
  | 0 => syncInit
  | n + 1 => syncAdvance (syncPass x (syncAfter x n))

/-- The read indices of the bit completions of a run with `fuel` passes left, in order (R105). -/
def completionsFrom (x : SyncInput) : Nat → SyncState → List Nat
  | 0, _ => []
  | fuel + 1, st =>
    if st.i ≤ Config.syncEnd then
      (if (seekEdges x st).count % Config.cell = 0 then [(seekEdges x st).i] else [])
        ++ (if syncPassFinds x st then [] else completionsFrom x fuel (syncAdvance (syncPass x st)))
    else []

/-- `check(word)` (R100). -/
def syncCheck (p : Config.Params) (w : BitVec 31) : Bool :=
  w != 0#31 && w != 0x7FFFFFFF#31 && w.extractLsb' 0 8 == w.extractLsb' 23 8 && golayValid p (w.setWidth 23)

/-- The result of a run that ended in this state (R102). -/
def syncResult (invMask : BitVec 23) (st : SyncState) : BitVec 23 := st.word.setWidth 23 ^^^ invMask

/-- What `recoverBits` reads, from a waveform and its peaks (R93, R94). -/
def syncInput (p : Config.Params) (w : Nat → Int) (peakLow peakHigh : Int) : SyncInput :=
  { wave := w, low := threshold peakLow, high := threshold peakHigh, check := syncCheck p }

/-- `recoverBits(w, peakLow, peakHigh, invMask)` (R98). -/
def recoverBits (p : Config.Params) (w : Nat → Int) (peakLow peakHigh : Int) (invMask : BitVec 23) :
    Option (BitVec 23) :=
  (syncLoop (syncInput p w peakLow peakHigh) syncMaxPasses syncInit).map (syncResult invMask)

/-! The same machine as a transition table (R99). -/

/-- The states of the table; DONE carries the result (R99). -/
inductive FsmState where
  | init | seekEarly | seekOntime | bitComplete | check | advance
  | done (result : Option (BitVec 23))
deriving DecidableEq, Repr

/-- One row of the table: the next state and the working state after the row's action (R99). -/
def fsmStep (x : SyncInput) (invMask : BitVec 23) : FsmState × SyncState → FsmState × SyncState
  | (.init, _) => (.seekEarly, syncInit)
  | (.seekEarly, st) =>
    if Config.syncEnd < st.i then (.done none, st)
    else match (if inWindow st.count then qual x st.prevBaseline st.i else none) with
      | some b => (.bitComplete, { st with bit := b, count := 0 })
      | none => if st.count % Config.cell = 0 then (.seekOntime, st) else (.advance, st)
  | (.seekOntime, st) =>
    match qual x st.prevBaseline (st.i + 1) with
    | some b => (.bitComplete, { st with i := st.i + 1, bit := b, count := 0 })
    | none => (.bitComplete, st)
  | (.bitComplete, st) =>
    (.check, { st with
      word := (BitVec.ofBool st.bit).setWidth 31 <<< 30 ||| st.word >>> 1
      prevBaseline := x.wave st.i
      bits := st.bits + 1 })
  | (.check, st) =>
    if decide (Config.syncBits ≤ st.bits) && x.check st.word then
      (.done (some (st.word.setWidth 23 ^^^ invMask)), st)
    else (.advance, st)
  | (.advance, st) => (.seekEarly, { st with count := st.count + 1, i := st.i + 1 })
  | (.done r, st) => (.done r, st)

/-- `n` rows of the table. -/
def fsmRun (x : SyncInput) (invMask : BitVec 23) : Nat → FsmState × SyncState → FsmState × SyncState
  | 0, c => c
  | n + 1, c => fsmRun x invMask n (fsmStep x invMask c)

/-! The command. -/

/-- The DCS_RAW layout (R37, R107). -/
def packRaw : Option (BitVec 23) → Word
  | none => 0#32
  | some v => 0x80000000#32 ||| v.setWidth 32

/-- RECOVER's commit: DCS_RAW, from the WAVE RAM and the PEAK registers (R107). -/
def commitRecover (s : State) : State :=
  { s with
    dcsRaw := packRaw (recoverBits Config.hw.params s.waveValue (sext32 s.peakLow) (sext32 s.peakHigh) s.invMask) }

/-- RECOVER (R107). -/
def execRecover (s : State) : Host.Outcome State Fault Refusal := runCommand .recover commitRecover s

end Sys2Proof.Machine
end

