-- ==== Sys2Proof/Machine/Tone.lean ====
section
/-! DEFINITION. The tone detector: the scorer (R73, R75), the classifier (R79) and its lanes (R83), the commands SCORE
(R78) and CLASSIFY (R84). -/

namespace Sys2Proof.Machine

/-- `angle(j, sf)` (R73). -/
def angle (j sf : Nat) : Nat := ((j * sf + 1024) >>> 11) % 1024

/-- The signed working accumulators I and Q (R46, R75). -/
structure ToneSums where
  i : Int
  q : Int
deriving DecidableEq, Repr

/-- One sample of the correlation: each product is shifted before it is added; I pairs with SIN, Q with COS (R75,
R76). -/
def toneStep (p : Config.Params) (blk : Nat → Int) (sf : Nat) (acc : ToneSums) (j : Nat) : ToneSums :=
  { i := acc.i + floorShift (p.sinAt (angle j sf) * blk j) 6
    q := acc.q + floorShift (p.cosAt (angle j sf) * blk j) 6 }

/-- The finished accumulators of a block (R75). -/
@[irreducible] def toneSums (p : Config.Params) (blk : Nat → Int) (sf : Nat) : ToneSums :=
  (List.range Config.blockLen).foldl (toneStep p blk sf) { i := 0, q := 0 }

/-- `(I >> 16)^2 + (Q >> 16)^2` (R75). -/
def scoreOfSums (a : ToneSums) : Int := floorShift a.i 16 ^ 2 + floorShift a.q 16 ^ 2

/-- `score(sf)` of a block (R75). -/
def score (p : Config.Params) (blk : Nat → Int) (sf : Nat) : Int := scoreOfSums (toneSums p blk sf)

/-- The running sum, the maximum and its index of the classifier (R79). -/
structure ToneScan where
  sum : Int
  max : Int
  idx : Nat
deriving DecidableEq, Repr

/-- One score of the scan: strict comparison, so the lowest index wins a tie (R79). -/
def scanStep (sc : Nat → Int) (acc : ToneScan) (k : Nat) : ToneScan :=
  if acc.max < sc k then { sum := acc.sum + sc k, max := sc k, idx := k }
  else { acc with sum := acc.sum + sc k }

/-- The scan before the first score: max below every score (R79). -/
def scanStart : ToneScan := { sum := 0, max := -1, idx := 0 }

/-- The scan of all 50 scores in index order (R79). -/
def scanScores (sc : Nat → Int) : ToneScan := (List.range Config.numTones).foldl (scanStep sc) scanStart

/-- `avg`: the exact quotient, floored to 1 if it would be 0 (R79). -/
def scanAverage (a : ToneScan) : Int :=
  if (a.sum - a.max) / Config.avgDiv = 0 then 1 else (a.sum - a.max) / Config.avgDiv

/-- The decision: the index of the maximum, if it passes the threshold and is not the reserved one (R79, R81). -/
def scanDecision (a : ToneScan) : Option Nat :=
  if scanAverage a * Config.detectFactor < a.max ∧ a.idx ≠ Config.reservedTone then some a.idx else none

/-- The scores of the tone table over a block (R79). -/
def toneScores (p : Config.Params) (blk : Nat → Int) (k : Nat) : Int := score p blk (p.sfWord k)

/-! Lanes (R83): an implementation may split the tones among parallel scanners, in any grouping and any order. -/

/-- Join two partial scans: on equal maxima the lower index wins (R83). -/
def scanJoin (a b : ToneScan) : ToneScan :=
  { sum := a.sum + b.sum
    max := if a.max < b.max then b.max else a.max
    idx := if a.max < b.max then b.idx else if b.max < a.max then a.idx else min a.idx b.idx }

/-- The partial scan of one tone. -/
def scanOne (sc : Nat → Int) (k : Nat) : ToneScan := { sum := sc k, max := sc k, idx := k }

/-- What one lane computes from its tones. -/
def laneScan (sc : Nat → Int) : List Nat → ToneScan
  | [] => { sum := 0, max := -1, idx := Config.numTones }
  | k :: ks => scanJoin (scanOne sc k) (laneScan sc ks)

/-- The reduction of all lanes. -/
def lanesScan (sc : Nat → Int) : List (List Nat) → ToneScan
  | [] => { sum := 0, max := -1, idx := Config.numTones }
  | lane :: lanes => scanJoin (laneScan sc lane) (lanesScan sc lanes)

/-- The tones dealt out to `n` lanes in turn: lane l takes the tones k with k mod n = l. -/
def dealtLanes (n : Nat) : List (List Nat) :=
  (List.range n).map fun l => (List.range Config.numTones).filter fun k => k % n == l

/-! The commands. -/

/-- The TONE_RESULT layout (R32, R84). -/
def packTone : Option Nat → Word
  | none => 0#32
  | some k => 0x80000000#32 ||| BitVec.ofNat 32 k

/-- The commit of a classification: the four tone registers, and SCORE[0..49] when `cfg.debug` = 1 (R82, R84). -/
def commitTone (p : Config.Params) (s : State) : State :=
  let sc := toneScores p s.block
  let a := scanScores sc
  { s with
    toneResult := packTone (scanDecision a)
    toneMax := to32 a.max
    toneAvg := to32 (scanAverage a)
    toneMaxIdx := BitVec.ofNat 32 a.idx
    scores := if s.cfgDebug then Vector.ofFn fun k : Fin 50 => to32 (sc k.val) else s.scores }

/-- SCORE's commit: `RESULT <- score(SF[arg8])` (R78). -/
def commitScore (arg8 : BitVec 8) (s : State) : State :=
  { s with result := to32 (toneScores Config.hw.params s.block arg8.toNat) }

/-- CLASSIFY's commit (R84). -/
def commitClassify (s : State) : State := commitTone Config.hw.params s

/-- SCORE (R78). -/
def execScore (arg8 : BitVec 8) (s : State) : Host.Outcome State Fault Refusal :=
  runCommand (.score arg8) (commitScore arg8) s

/-- CLASSIFY (R84). -/
def execClassify (s : State) : Host.Outcome State Fault Refusal := runCommand .classify commitClassify s

end Sys2Proof.Machine
end

