-- ==== Sys2Proof/Machine/Pipeline.lean ====
section
/-! DEFINITION. The pipeline and the control commands: the DCS chain (R125, R126), DCS (R127), RUN (R128), NOP (R132),
CLRBLK (R133), and the DetectionResult a host reads (R129). -/

namespace Sys2Proof.Machine

/-- `raw` of `dcsChain()`: the synchroniser on the filter's own outputs and extremes (R125). -/
def chainRaw (p : Config.Params) (blk : Nat → Int) (invMask : BitVec 23) : Option (BitVec 23) :=
  recoverBits p (fir p blk) (firPeakLow p blk) (firPeakHigh p blk) invMask

/-- `res` of `dcsChain()`: only a word the synchroniser returned reaches the resolver (R125). -/
def chainResolved (p : Config.Params) (la : Bool) (raw : Option (BitVec 23)) : Option Resolved :=
  raw.bind (resolve p la)

/-- The commit of the DCS chain at the completion of DCS or RUN (R126). -/
def commitChain (p : Config.Params) (s : State) : State :=
  { commitFir p s with
    dcsRaw := packRaw (chainRaw p s.block s.invMask)
    dcsResult := packResolved (chainResolved p s.cfgAlias (chainRaw p s.block s.invMask)) }

/-- DCS's commit (R127). -/
def commitDcs (s : State) : State := commitChain Config.hw.params s

/-- The per-cycle update of the idle registers, from what the two branches found (R39, R128). -/
def idleUpdate (p : Config.Params) (s : State) : Word × Word :=
  Config.idleUpdate (scanDecision (scanScores (toneScores p s.block))).isSome
    (chainResolved p s.cfgAlias (chainRaw p s.block s.invMask)).isSome s.idleTimeout s.sweepPhase

/-- RUN's commit: the tone branch, the DCS branch and the idle registers, all from the state before it (R128). -/
def commitRun (s : State) : State :=
  let t := commitTone Config.hw.params s
  let d := commitChain Config.hw.params s
  let u := idleUpdate Config.hw.params s
  { d with
    toneResult := t.toneResult
    toneMax := t.toneMax
    toneAvg := t.toneAvg
    toneMaxIdx := t.toneMaxIdx
    scores := t.scores
    idleTimeout := u.1
    sweepPhase := u.2 }

/-- CLRBLK's commit: every valid bit cleared; raw and value stay (R133). -/
def commitClrblk (s : State) : State := { s with sampleValid := 0#4000, waveValid := 0#500 }

/-- NOP's commit: nothing (R132). -/
def commitNop (s : State) : State := s

/-- NOP (R132). -/
def execNop (s : State) : Host.Outcome State Fault Refusal := runCommand .nop commitNop s

/-- RUN (R128). -/
def execRun (s : State) : Host.Outcome State Fault Refusal := runCommand .run commitRun s

/-- DCS (R127). -/
def execDcs (s : State) : Host.Outcome State Fault Refusal := runCommand .dcs commitDcs s

/-- CLRBLK (R133). -/
def execClrblk (s : State) : Host.Outcome State Fault Refusal := runCommand .clrblk commitClrblk s

/-- `toneIndex` of the DetectionResult, from TONE_RESULT (R129). -/
def detectedTone (s : State) : Option (BitVec 6) :=
  if s.toneResult.getLsbD 31 then some (s.toneResult.extractLsb' 0 6) else none

/-- `dcsCode` of the DetectionResult, from DCS_RESULT (R129). -/
def detectedCode (s : State) : Option (BitVec 16) :=
  if s.dcsResult.getLsbD 31 then some (s.dcsResult.extractLsb' 0 16) else none

end Sys2Proof.Machine
end

