-- ==== Sys2Proof/Machine/Dispatch.lean ====
section
/-! DEFINITION. One arm per row of the opcode table (R68), each a direct call of its meaning. -/

namespace Sys2Proof.Machine

def exec (i : Instr) (s : State) : Host.Outcome State Fault Refusal :=
  match i with
  | .nop => Sys2Proof.Machine.execNop s
  | .run => Sys2Proof.Machine.execRun s
  | .classify => Sys2Proof.Machine.execClassify s
  | .dcs => Sys2Proof.Machine.execDcs s
  | .score arg8 => Sys2Proof.Machine.execScore arg8 s
  | .filter => Sys2Proof.Machine.execFilter s
  | .recover => Sys2Proof.Machine.execRecover s
  | .resolve => Sys2Proof.Machine.execResolve s
  | .golayEnc => Sys2Proof.Machine.execGolayEnc s
  | .golayChk => Sys2Proof.Machine.execGolayChk s
  | .clrblk => Sys2Proof.Machine.execClrblk s
  | .read waddr => Sys2Proof.Machine.execRead waddr s
  | .write waddr data => Sys2Proof.Machine.execWrite waddr data s

end Sys2Proof.Machine
end

