-- ==== Sys2Proof/Machine/Fetch.lean ====
section
/-! DEFINITION. Where a step finds its next move: the first entry of the agenda, or, when there is none, the engine's
completion (R59, R122, R123). The engine fetches no code; its only program is the host's sequence of transactions
(R19, R24). -/

namespace Sys2Proof.Machine

/-- What the next move is: an instruction to run in a state, a step that is already done, or a word with no meaning. -/
inductive Move where
  | run (i : Instr) (s : State)
  | done (s : State)
  | reject (r : Refusal)
deriving DecidableEq, Repr

/-- The engine's own move: the completion of the pending command while BUSY; in mode IDLE it does nothing (R122,
R155). -/
def engineMove (s : State) : Move :=
  if s.busy then .run s.pending.toInstr s else .done s

/-- A word the host presents. A CMD word at the CMD register while BUSY is refused without being decoded (R138), an
illegal one raises CommandError (R139); a BUS record is decoded as one of the two transactions (R66). -/
def wordMove (e : Encoded) (s : State) : Move :=
  match e with
  | .cmd w =>
    if s.busy then .done (s.raise .busy)
    else match decode (.cmd w) with
      | .error _ => .done (s.raise .command)
      | .ok i => .run i s
  | .bus r =>
    match decode (.bus r) with
    | .error _ => .reject .notATransaction
    | .ok i => .run i s

/-- A raw host access: the BUS instruction it spells if it is admitted, else AddressError (R52). -/
def accessMove (we : Bool) (offset : BitVec 15) (size : Nat) (data : Word) (s : State) : Move :=
  if admitted offset size then .run (accessInstr we offset data) s else .done (s.refusedAccess we)

/-- The next move, with the agenda entry it comes from taken off. -/
def fetch (s : State) : Move :=
  match s.agenda with
  | [] => engineMove s
  | .word e :: rest => wordMove e { s with agenda := rest }
  | .access we offset size data :: rest => accessMove we offset size data { s with agenda := rest }
  | .complete :: rest => engineMove { s with agenda := rest }
  | .reset :: rest => .done (State.resetPulse { s with agenda := rest })

/-- The word put first among the moves to come. -/
def State.withWord (s : State) (e : Encoded) : State := { s with agenda := .word e :: s.agenda }

end Sys2Proof.Machine
end

