-- ==== Sys2Proof/Machine/Step.lean ====
section
/-! DEFINITION. One step of the machine: the next move in the one total order of host transactions and engine steps
(R59). -/

namespace Sys2Proof.Machine

/-- One step. -/
def step (s : State) : Host.Outcome State Fault Refusal :=
  match fetch s with
  | .run i t => exec i t
  | .done t => .next t
  | .reject r => .refused r

/-- The word of an opcode-table row put first on the agenda, where `step` fetches; a CMD word is presented at the CMD
register, a BUS record at the bus. Log 1. -/
def State.withFetchWord (s : State) (nbits w : Nat) : State :=
  match encodedOf nbits w with
  | some e => s.withWord e
  | none => s

end Sys2Proof.Machine
end

