-- ==== Sys2Proof/Machine/Assembly.lean ====
section
/-! DEFINITION. The host assembly (R71) and the pseudo-instructions (R72), as the moves they stand for. -/

namespace Sys2Proof.Machine

/-- `<loc>`: a register name, an array element, or a byte offset (R71). -/
inductive Loc where
  | reg (r : Reg)
  | score (k : Nat)
  | wave (k : Nat)
  | sample (j : Nat)
  | offset (o : BitVec 15)
deriving DecidableEq, Repr

/-- The byte offset of a register (R25). -/
def regOffset : Reg → Nat
  | .id => 0x000
  | .ctrl => 0x004
  | .status => 0x008
  | .cmd => 0x00C
  | .arg => 0x010
  | .result => 0x014
  | .toneResult => 0x018
  | .toneMax => 0x01C
  | .toneAvg => 0x020
  | .toneMaxIdx => 0x024
  | .dcsResult => 0x028
  | .dcsRaw => 0x02C
  | .peakLow => 0x030
  | .peakHigh => 0x034
  | .idleTimeout => 0x038
  | .sweepPhase => 0x03C

/-- The byte offset a location stands for (R50, R71). -/
def locOffset : Loc → BitVec 15
  | .reg r => BitVec.ofNat 15 (regOffset r)
  | .score k => BitVec.ofNat 15 (0x40 + 4 * k)
  | .wave k => BitVec.ofNat 15 (waveOffset k)
  | .sample j => BitVec.ofNat 15 (sampleOffset j)
  | .offset o => o

/-- One line of host assembly (R71). -/
inductive AsmLine where
  | rd (loc : Loc)
  | wr (loc : Loc) (v : Word)
  | cmd (c : Command)
deriving DecidableEq, Repr

/-- The 4-byte transaction at an offset: a BUS record where the offset is aligned, a raw access where it is not (R66). -/
def transaction (we : Bool) (off : BitVec 15) (v : Word) : Event :=
  if off.toNat % 4 = 0 then .word (.bus (encodeRecord we (off.extractLsb' 2 13) v)) else .access we off 4 v

/-- The transaction a line is (R71). -/
def asmEvent : AsmLine → Event
  | .rd loc => transaction false (locOffset loc) 0#32
  | .wr loc v => transaction true (locOffset loc) v
  | .cmd c => transaction true (locOffset (.reg .cmd)) (encodeCommand c)

/-- The pseudo-instructions (R72). `v` is the value the first read of a read-modify-write returned; WAIT is given the
number of times its read is repeated, which depends on the schedule. -/
inductive Pseudo where
  | wait (polls : Nat)
  | exec (c : Command) (polls : Nat)
  | toggleDebug (v : Word)
  | toggleInvert (v : Word)
  | setAliasStd (v : Word)
  | setAliasLa (v : Word)
  | version
  | clearStatus
  | loadBlock (r : List (BitVec 12))
deriving DecidableEq, Repr

/-- The lines a pseudo-instruction expands to (R72). -/
def expand : Pseudo → List AsmLine
  | .wait n => List.replicate n (.rd (.reg .status))
  | .exec c n => .cmd c :: List.replicate n (.rd (.reg .status))
  | .toggleDebug v => [.rd (.reg .ctrl), .wr (.reg .ctrl) (v ^^^ 0x1#32)]
  | .toggleInvert v => [.rd (.reg .ctrl), .wr (.reg .ctrl) (v ^^^ 0x2#32)]
  | .setAliasStd v => [.rd (.reg .ctrl), .wr (.reg .ctrl) (v &&& ~~~0x4#32)]
  | .setAliasLa v => [.rd (.reg .ctrl), .wr (.reg .ctrl) (v ||| 0x4#32)]
  | .version => [.rd (.reg .id)]
  | .clearStatus => [.wr (.reg .status) 0x7E#32]
  | .loadBlock r => r.zipIdx.map fun e => .wr (.sample e.2) (e.1.setWidth 32)

/-- The moves of a host program (R71, R72). -/
def assemble (lines : List AsmLine) : List Event := lines.map asmEvent

end Sys2Proof.Machine
end

