-- ==== Sys2Proof/Safety.lean ====
section
/-! DEFINITION. What counts as a safe run: the invariant that rules out the states no run reaches, the outcomes that
are no fault, and the observation of a finished run (R135). -/

namespace Sys2Proof.Machine

/-- The reserved bits of the stored registers are 0 (R25, R27, R28, R32, R35, R36, R37). -/
def reservedClear (s : State) : Prop :=
  s.ctrl &&& ~~~regMask .ctrl = 0#32 ∧ s.status &&& ~~~regMask .status = 0#32
    ∧ s.toneResult &&& ~~~regMask .toneResult = 0#32 ∧ s.toneMaxIdx &&& ~~~regMask .toneMaxIdx = 0#32
    ∧ s.dcsResult &&& ~~~regMask .dcsResult = 0#32 ∧ s.dcsRaw &&& ~~~regMask .dcsRaw = 0#32

/-- LAST_ERR is 0 or an error code, LAST_OP an opcode (R136, R28). -/
def codesLegal (s : State) : Prop := s.lastErr.toNat ≤ 5 ∧ s.lastOp.toNat ≤ 0xA

/-- Only entries below L are ever valid (R42, R53). -/
def waveInRange (s : State) : Prop :=
  ∀ k : Nat, s.waveValid.getLsbD k = true → k < Config.hw.params.waveLen

/-- Every SAMPLE entry is valid: `blockComplete()` (R120). -/
def blockLoaded (s : State) : Prop := ∀ j : Nat, j < 4000 → s.sampleValid.getLsbD j = true

/-- Every WAVE entry below L is valid: `waveComplete()` (R120). -/
def waveLoaded (s : State) : Prop := ∀ k : Nat, k < Config.hw.params.waveLen → s.waveValid.getLsbD k = true

/-- The commands that consume the block (R120). -/
def consumesBlock (c : Command) : Prop := (∃ k, c = .score k) ∨ c = .classify ∨ c = .filter ∨ c = .dcs ∨ c = .run

/-- The RAM entries a command reads are valid: the block for the commands that consume it, the waveform for RECOVER
(R120). -/
def ramReady (c : Command) (s : State) : Prop := (consumesBlock c → blockLoaded s) ∧ (c = .recover → waveLoaded s)

/-- What R121 asks of a legal command before it is accepted in mode IDLE: a tone index below 50, and the RAM entries it
reads. -/
def commandReady (c : Command) (s : State) : Prop := (∀ k, c = .score k → k.toNat < 50) ∧ ramReady c s

/-- While BUSY, the pending command is one that acceptance leaves, with what its completion reads (R121, R122). -/
def pendingReady (s : State) : Prop := s.busy = true → commandReady s.pending s

/-- The invariant of every run from reset. -/
structure State.Inv (s : State) : Prop where
  memory : s.mem.wf = true
  reserved : reservedClear s
  codes : codesLegal s
  wave : waveInRange s
  ready : pendingReady s

/-- STATUS from before to after a completion of an opcode: BUSY 0, DONE 1, LAST_OP the opcode, every other bit as it
was (R122). -/
def completedStatus (op : BitVec 4) (before after : Word) : Prop :=
  after.getLsbD 0 = false ∧ after.getLsbD 1 = true ∧ after.extractLsb' 12 4 = op
    ∧ ∀ b : Nat, (2 ≤ b ∧ b < 12) ∨ 16 ≤ b → after.getLsbD b = before.getLsbD b

/-- STATUS from before to after an error with this code and bit: the bit 1, LAST_ERR the code, every other bit as it was
(R137). -/
def raisedStatus (code : BitVec 4) (bit : Nat) (before after : Word) : Prop :=
  after.getLsbD bit = true ∧ after.extractLsb' 8 4 = code
    ∧ ∀ b : Nat, b ≠ bit → b < 8 ∨ 12 ≤ b → after.getLsbD b = before.getLsbD b

/-- The outcome is the state with an error recorded in STATUS and nothing else changed (R137). -/
def refusedWith (code : BitVec 4) (bit : Nat) (s : State) (o : Host.Outcome State Fault Refusal) : Prop :=
  ∃ st, raisedStatus code bit s.status st ∧ o = .next { s with status := st }

/-- No entry of the WAVE window below L holds the byte at this address (R50). -/
def outsideWave (a : Nat) : Prop :=
  ∀ m : Nat, m < Config.hw.params.waveLen → a < waveOffset m ∨ waveOffset m + 4 ≤ a

/-- A host transaction: a READ or a WRITE (R66). -/
def isTransaction (i : Instr) : Prop := (∃ a, i = .read a) ∨ ∃ a v, i = .write a v

/-- The fields of TONE_RESULT for a decision: VALID, INDEX, the other bits 0 (R32). -/
def toneResultShows (r : Option Nat) (w : Word) : Prop :=
  w.getLsbD 31 = r.isSome ∧ (∀ k, r = some k → (w.extractLsb' 0 6).toNat = k) ∧ w.extractLsb' 6 25 = 0#25
    ∧ (r = none → w = 0#32)

/-- The fields of DCS_RAW for what the synchroniser returned: SYNC_OK, WORD, the other bits 0 (R37). -/
def dcsRawShows (raw : Option (BitVec 23)) (w : Word) : Prop :=
  w.getLsbD 31 = raw.isSome ∧ (∀ v, raw = some v → w.extractLsb' 0 23 = v) ∧ w.extractLsb' 23 8 = 0#8
    ∧ (raw = none → w = 0#32)

/-- Two states agree on what R131 lists, each item as the pending command's operands require: the command with its
`arg8`, the latched configuration, the valid bits, the block for the commands that consume it, the waveform and the peaks
for RECOVER, and for RUN the idle registers. The tables are one for the machine. -/
def sameInputs (s t : State) : Prop :=
  s.pending = t.pending
    ∧ s.cfgDebug = t.cfgDebug ∧ s.cfgInvert = t.cfgInvert ∧ s.cfgAlias = t.cfgAlias ∧ s.cfgArg = t.cfgArg
    ∧ s.sampleValid = t.sampleValid ∧ s.waveValid = t.waveValid
    ∧ (consumesBlock s.pending → ∀ j : Nat, j < 4000 → s.sampleRaw j = t.sampleRaw j)
    ∧ (s.pending = .recover → (∀ k : Nat, k < Config.hw.params.waveLen → s.waveValue k = t.waveValue k)
        ∧ s.peakLow = t.peakLow ∧ s.peakHigh = t.peakHigh)
    ∧ (s.pending = .run → s.idleTimeout = t.idleTimeout ∧ s.sweepPhase = t.sweepPhase)

/-- Agreement on the tone branch's part of a commit set, SCORE with `cfg.debug` only (R124). -/
def sameToneCommit (debug : Bool) (t u : State) : Prop :=
  t.toneResult = u.toneResult ∧ t.toneMax = u.toneMax ∧ t.toneAvg = u.toneAvg ∧ t.toneMaxIdx = u.toneMaxIdx
    ∧ (debug = true → t.scores = u.scores)

/-- Agreement on the filter's part of a commit set (R124). -/
def sameFilterCommit (t u : State) : Prop :=
  (∀ m : Nat, m < Config.hw.params.waveLen → t.waveValue m = u.waveValue m) ∧ waveLoaded t ∧ waveLoaded u
    ∧ t.peakLow = u.peakLow ∧ t.peakHigh = u.peakHigh

/-- Agreement on the DCS chain's part of a commit set (R124). -/
def sameChainCommit (t u : State) : Prop :=
  sameFilterCommit t u ∧ t.dcsRaw = u.dcsRaw ∧ t.dcsResult = u.dcsResult

/-- Two states agree on the commit set of a command (R124); `debug` is the latched `cfg.debug`. -/
def sameCommit (debug : Bool) : Command → State → State → Prop
  | .nop, _, _ => True
  | .run, t, u => sameToneCommit debug t u ∧ sameChainCommit t u
      ∧ t.idleTimeout = u.idleTimeout ∧ t.sweepPhase = u.sweepPhase
  | .classify, t, u => sameToneCommit debug t u
  | .dcs, t, u => sameChainCommit t u
  | .score _, t, u => t.result = u.result
  | .filter, t, u => sameFilterCommit t u
  | .recover, t, u => t.dcsRaw = u.dcsRaw
  | .resolve, t, u => t.result = u.result
  | .golayEnc, t, u => t.result = u.result
  | .golayChk, t, u => t.result = u.result
  | .clrblk, t, u => t.sampleValid = u.sampleValid ∧ t.waveValid = u.waveValid

/-- A move of the host: a transaction record, a CMD word presented at the CMD register, or a raw access (R52, R59); the
engine's completion and the reset input are none. -/
def isHostMove : Event → Prop
  | .word _ => True
  | .access _ _ _ _ => True
  | .complete => False
  | .reset => False

/-- Every word among the moves to come spells a transaction or a CMD word; any CMD word does (R66). -/
def eventWellFormed : Event → Prop
  | .word (.bus r) => (Encoded.bus r).wf = true
  | .word (.cmd _) => True
  | .access _ _ _ _ => True
  | .complete => True
  | .reset => True

/-- The host presents well-formed records only. -/
def agendaWellFormed (s : State) : Prop := ∀ e ∈ s.agenda, eventWellFormed e

/-- The host has issued its last transaction and mode = IDLE (R135); a completion or a reset pulse may still stand among
the moves to come. -/
def State.finished (s : State) : Prop := (∀ e ∈ s.agenda, ¬ isHostMove e) ∧ s.busy = false

/-- The end of a run from s: the first state in which the host has issued its last transaction and mode = IDLE, reached
after k steps (R135). -/
def endsAt (s : State) (k : Nat) (t : State) : Prop :=
  Sys2Proof.core.run k s = .next t ∧ t.finished
    ∧ ∀ (j : Nat) (u : State), j < k → Sys2Proof.core.run j s = .next u → ¬ u.finished

/-- The observation of a run: the register block, the SAMPLE and WAVE contents with their valid bits, and `irq` (R135).
An entry that is not valid shows none: no rule reads its contents (R41, R42). Log 26. -/
structure Observation where
  regs : List Word
  scores : Vector Word 50
  samples : List (Option (BitVec 12))
  waves : List (Option Int)
  irq : Bool
deriving DecidableEq, Repr

/-- What a state shows (R135). -/
def State.observe (s : State) : Observation :=
  { regs := [Reg.id, .ctrl, .status, .cmd, .arg, .result, .toneResult, .toneMax, .toneAvg, .toneMaxIdx, .dcsResult,
      .dcsRaw, .peakLow, .peakHigh, .idleTimeout, .sweepPhase].map s.regRead
    scores := s.scores
    samples := (List.range Config.blockLen).map fun j => if s.sampleValid.getLsbD j then some (s.sampleRaw j) else none
    waves := (List.range Config.hw.params.waveLen).map fun k =>
      if s.waveValid.getLsbD k then some (s.waveValue k) else none
    irq := s.irq }

end Sys2Proof.Machine
end

