-- ==== Sys2Proof/Certificates/Slice0/Obligations.lean ====
section
/-! DEFINITION. The statements for the provers. Each says in its docstring which rule of the spec it formalises. -/

open Sys2Proof Sys2Proof.Machine

/-! Encoding. -/

/-- Decoding an encoded instruction gives it back, every operand at every value (R65, R66, R68). -/
def Obligations.DecodeEncodeRoundTrip : Prop :=
  ∀ i : Instr, decode (encode i) = .ok i

/-- A word that decodes is the encoding of what it decodes to: every word has at most one meaning and no two words have
the same (R69, R70). -/
def Obligations.DecodedWordIsTheEncoding : Prop :=
  ∀ (e : Encoded) (i : Instr), decode e = .ok i → encode i = e

/-- The four cases of R69 in its order; a write of an illegal word in mode IDLE raises CommandError and changes nothing
else; one word spells each command but SCORE, and one word each of SCORE's 256 operands. -/
def Obligations.CmdWordDecodesInOrder : Prop :=
  (∀ w : Word,
    ((w.extractLsb' 16 16 ≠ 0#16 ∨ w.extractLsb' 4 4 ≠ 0#4) → decode (.cmd w) = .error .reservedField)
    ∧ (w.extractLsb' 16 16 = 0#16 → w.extractLsb' 4 4 = 0#4 →
      (0xB ≤ (w.extractLsb' 0 4).toNat → decode (.cmd w) = .error .reservedOpcode)
      ∧ ((w.extractLsb' 0 4).toNat ≤ 0xA → w.extractLsb' 0 4 ≠ 0x4#4 → w.extractLsb' 8 8 ≠ 0#8 →
        decode (.cmd w) = .error .argNotZero)
      ∧ ((w.extractLsb' 0 4).toNat ≤ 0xA → (w.extractLsb' 0 4 = 0x4#4 ∨ w.extractLsb' 8 8 = 0#8) →
        ∃ c : Command, decode (.cmd w) = .ok c.toInstr ∧ c.opcode = w.extractLsb' 0 4 ∧ c.arg8 = w.extractLsb' 8 8)))
  ∧ (∀ (w : Word) (s : State) (err : DecodeError), decode (.cmd w) = .error err → s.busy = false →
      refusedWith 2#4 3 s (exec (.write 3#13 w) s))
  ∧ (∀ op : BitVec 4, op.toNat ≤ 0xA → op ≠ 0x4#4 → ∃! w : Word, ∃ c, decodeCommand w = .ok c ∧ c.opcode = op)
  ∧ (∀ k : BitVec 8, ∃! w : Word, decodeCommand w = .ok (.score k))

/-- A few words written out from the spec's tables decode to what they stand for (R68, R71). -/
def Obligations.WrittenOutWordsDecode : Prop :=
  decodeTableWord 32 0x00000001 = some .run ∧ decodeTableWord 32 0x00003104 = some (.score 49#8)
    ∧ decodeTableWord 32 0x0000000A = some .clrblk ∧ decodeTableWord 32 0x0000000B = none
    ∧ decodeTableWord 32 0x00000101 = none ∧ decodeTableWord 48 0x200400000813 = some (.write 0x004#13 0x813#32)
    ∧ decodeTableWord 48 0x000200000000 = some (.read 0x002#13) ∧ decodeTableWord 48 0x000200000001 = none

/-! The step. -/

/-- A step runs the instruction that the word the host presents decodes to, with the word taken off the agenda. A CMD word
is decoded only in mode IDLE: there an illegal one raises CommandError; while BUSY it raises BusyError, legal or not; and
nothing else happens (R59, R121, R138, R139). The agenda is the model's (log 1). -/
def Obligations.StepRunsThePresentedWord : Prop :=
  ∀ (s : State) (e : Encoded) (rest : List Event), s.agenda = .word e :: rest →
    (∀ i : Instr, decode e = .ok i → ((∃ w, e = .cmd w) → s.busy = false) → step s = exec i { s with agenda := rest })
    ∧ (∀ err : DecodeError, decode e = .error err → (∃ w, e = .cmd w) → s.busy = false →
      refusedWith 2#4 3 { s with agenda := rest } (step s))
    ∧ ((∃ w, e = .cmd w) → s.busy = true → refusedWith 1#4 2 { s with agenda := rest } (step s))

/-- While BUSY, the engine's step runs the pending command: at an entry of the schedule, and when the host has no more
moves (R122, R123). In mode IDLE the engine does nothing (R155). Where the completion falls is the schedule the model
chose to write into the agenda (log 3). -/
def Obligations.EngineStepRunsThePendingCommand : Prop :=
  ∀ (s : State) (rest : List Event),
    (s.busy = true →
      (s.agenda = [] → step s = exec s.pending.toInstr s)
      ∧ (s.agenda = .complete :: rest → step s = exec s.pending.toInstr { s with agenda := rest }))
    ∧ (s.busy = false →
      (s.agenda = [] → step s = .next s)
      ∧ (s.agenda = .complete :: rest → step s = .next { s with agenda := rest }))

/-- A raw access is the BUS transaction at its offset when it is aligned and 4 bytes wide, else AddressError, with the
value 0 for a read (R52). That such an access stands in the agenda is the model's (log 14). -/
def Obligations.RawAccessIsAdmittedOrRefused : Prop :=
  ∀ (s : State) (we : Bool) (off : BitVec 15) (size : Nat) (v : Word) (rest : List Event),
    s.agenda = .access we off size v :: rest →
    (off.toNat % 4 = 0 ∧ size = 4 → ∃ a : BitVec 13, 4 * a.toNat = off.toNat
      ∧ step s = exec (if we then .write a v else .read a) { s with agenda := rest })
    ∧ (¬ (off.toNat % 4 = 0 ∧ size = 4) →
      (we = true → refusedWith 5#4 6 { s with agenda := rest } (step s))
      ∧ (we = false → refusedWith 5#4 6 { s with agenda := rest, busData := 0#32 } (step s)))

/-- The reset input gives every register its reset value, clears every valid bit, leaves IDLE with no interrupt, and
commits nothing of a running command (R157). That the agenda, the last read and the count of draws stay is the model's
choice (log 15), and so are the values R157 leaves unspecified: the RAM contents (log 7), the pending command and the
latched configuration (log 8). -/
def Obligations.ResetInputGivesTheResetState : Prop :=
  (∀ (s : State) (rest : List Event), s.agenda = .reset :: rest →
    step s = .next { State.reset with agenda := rest, busData := s.busData, draws := s.draws })
  ∧ State.reset.regRead .id = Config.hw.params.coreId ∧ State.reset.regRead .ctrl = 0x4#32
  ∧ (∀ r : Reg, r ≠ .id → r ≠ .ctrl → r ≠ .idleTimeout → State.reset.regRead r = 0#32)
  ∧ State.reset.regRead .idleTimeout = 5#32
  ∧ (∀ k : Fin 50, State.reset.scores[k] = 0#32)
  ∧ (∀ j : Nat, State.reset.sampleValid.getLsbD j = false) ∧ (∀ k : Nat, State.reset.waveValid.getLsbD k = false)
  ∧ State.reset.busy = false ∧ State.reset.irq = false

/-! Acceptance and errors. -/

/-- R121 whole: the checks of a CMD write in order, each raising its error and changing nothing else; else the latched
configuration, the pending command, BUSY set and DONE cleared, and no result. -/
def Obligations.CmdWriteChecksInOrder : Prop :=
  ∀ (v : Word) (s : State),
    (s.busy = true → refusedWith 1#4 2 s (exec (.write 3#13 v) s))
    ∧ (s.busy = false →
      (∀ err, decode (.cmd v) = .error err → refusedWith 2#4 3 s (exec (.write 3#13 v) s))
      ∧ ∀ c : Command, decode (.cmd v) = .ok c.toInstr →
        (∀ k, c = .score k → 50 ≤ k.toNat → refusedWith 3#4 4 s (exec (.write 3#13 v) s))
        ∧ ((((∃ k, c = .score k ∧ k.toNat < 50) ∨ c = .classify ∨ c = .filter ∨ c = .dcs ∨ c = .run)
            ∧ ¬ blockLoaded s) → refusedWith 4#4 5 s (exec (.write 3#13 v) s))
        ∧ (c = .recover → ¬ waveLoaded s → refusedWith 4#4 5 s (exec (.write 3#13 v) s))
        ∧ (commandReady c s → ∃ st : Word, st.getLsbD 0 = true ∧ st.getLsbD 1 = false
            ∧ (∀ b : Nat, 2 ≤ b → st.getLsbD b = s.status.getLsbD b)
            ∧ exec (.write 3#13 v) s = .next { s with
                cfgDebug := s.ctrl.getLsbD 0
                cfgInvert := s.ctrl.getLsbD 1
                cfgAlias := s.ctrl.getLsbD 2
                cfgArg := s.arg
                pending := c
                status := st }))

/-- In mode IDLE a command's meaning is the write of its word to CMD: all eleven commands, every outcome (R71, R121). That
one constructor has the acceptance and the completion as its two phases is the model's reading (log 2). -/
def Obligations.CommandInIdleIsTheCmdWrite : Prop :=
  ∀ (c : Command) (s : State), s.busy = false → exec c.toInstr s = exec (.write 3#13 (encodeCommand c)) s

/-- An unmapped access raises AddressError in both modes, whatever else holds, and a read of it returns 0 (R53, R142,
R143). -/
def Obligations.UnmappedAccessRaisesAddressError : Prop :=
  ∀ (s : State) (a : BitVec 13) (v : Word),
    ¬ (4 * a.toNat < 0x108
      ∨ (0x1000 ≤ 4 * a.toNat ∧ 4 * a.toNat < 0x1000 + 4 * Config.hw.params.waveLen)
      ∨ (0x4000 ≤ 4 * a.toNat ∧ 4 * a.toNat < 0x4000 + 4 * 4000)) →
    refusedWith 5#4 6 s (exec (.write a v) s)
    ∧ refusedWith 5#4 6 { s with busData := 0#32 } (exec (.read a) s)

/-- A host write of STATUS clears exactly the bits 1 to 6 written as 1, in both modes; BUSY, LAST_ERR and LAST_OP stay
(R28, R146). -/
def Obligations.StatusWriteClearsWrittenOnes : Prop :=
  ∀ (s : State) (v : Word), ∃ st : Word,
    (∀ b : Nat, st.getLsbD b = (s.status.getLsbD b && !(decide (1 ≤ b ∧ b ≤ 6) && v.getLsbD b)))
    ∧ exec (.write 2#13 v) s = .next { s with status := st }

/-- `irq` is IRQ_EN and one of DONE and the five error bits (R148). -/
def Obligations.IrqIsEnabledDoneOrError : Prop :=
  ∀ s : State, s.irq = true ↔ s.ctrl.getLsbD 3 = true ∧ ∃ b : Nat, 1 ≤ b ∧ b ≤ 6 ∧ s.status.getLsbD b = true

/-! Completions: one for each command, with its whole effect and its frame. A command's meaning in mode BUSY with that
command pending is its completion (log 2). -/

/-- NOP completes and commits nothing (R132). -/
def Obligations.NopCompletes : Prop :=
  ∀ s : State, s.busy = true → s.pending = .nop →
    ∃ st, completedStatus 0x0#4 s.status st ∧ exec .nop s = .next { s with status := st }

/-- GOLAY_ENC: RESULT is the codeword of cfg.arg[11:0], and nothing else changes (R112). -/
def Obligations.GolayEncCompletes : Prop :=
  ∀ s : State, s.busy = true → s.pending = .golayEnc →
    ∃ st, completedStatus 0x8#4 s.status st
      ∧ exec .golayEnc s = .next { s with
          result := (golayEncode Config.hw.params (s.cfgArg.extractLsb' 0 12)).setWidth 32
          status := st }

/-- GOLAY_CHK: RESULT is 1 exactly when cfg.arg[22:0] is the codeword of its own low 12 bits, else 0 (R113). -/
def Obligations.GolayChkCompletes : Prop :=
  ∀ s : State, s.busy = true → s.pending = .golayChk →
    ∃ st r, completedStatus 0x9#4 s.status st
      ∧ (r = 1#32 ∨ r = 0#32)
      ∧ (r = 1#32 ↔ golayEncode Config.hw.params (s.cfgArg.extractLsb' 0 12) = s.cfgArg.extractLsb' 0 23)
      ∧ exec .golayChk s = .next { s with result := r, status := st }

/-- RESOLVE: RESULT in the DCS_RESULT layout from cfg.arg[22:0] and cfg.alias (R119). -/
def Obligations.ResolveCompletes : Prop :=
  ∀ s : State, s.busy = true → s.pending = .resolve →
    ∃ st, completedStatus 0x7#4 s.status st
      ∧ exec .resolve s = .next { s with
          result := packResolved (resolve Config.hw.params s.cfgAlias (s.cfgArg.extractLsb' 0 23))
          status := st }

/-- CLRBLK: every valid bit of both RAMs is cleared, and nothing else changes, not even raw and value (R133). -/
def Obligations.ClrblkCompletes : Prop :=
  ∀ s : State, s.busy = true → s.pending = .clrblk →
    ∃ st, completedStatus 0xA#4 s.status st
      ∧ exec .clrblk s = .next { s with sampleValid := 0#4000, waveValid := 0#500, status := st }

/-- SCORE: RESULT is the score of the tone the operand names (R78). -/
def Obligations.ScoreCompletes : Prop :=
  ∀ (k : BitVec 8) (s : State), s.busy = true → s.pending = .score k → k.toNat < 50 → blockLoaded s →
    ∃ st r, completedStatus 0x4#4 s.status st
      ∧ (r.toNat : Int) = score Config.hw.params s.block (Config.hw.params.sfWord k.toNat)
      ∧ exec (.score k) s = .next { s with result := r, status := st }

/-- CLASSIFY: the tone registers, TONE_RESULT by its fields, and, with cfg.debug, the fifty scores (R32, R82, R84). -/
def Obligations.ClassifyCompletes : Prop :=
  ∀ s : State, s.busy = true → s.pending = .classify → blockLoaded s →
    ∃ t, exec .classify s = .next t ∧ completedStatus 0x2#4 s.status t.status
      ∧ t = { s with
          toneResult := t.toneResult
          toneMax := t.toneMax
          toneAvg := t.toneAvg
          toneMaxIdx := t.toneMaxIdx
          scores := t.scores
          status := t.status }
      ∧ toneResultShows (scanDecision (scanScores (toneScores Config.hw.params s.block))) t.toneResult
      ∧ (t.toneMax.toNat : Int) = (scanScores (toneScores Config.hw.params s.block)).max
      ∧ (t.toneAvg.toNat : Int) = scanAverage (scanScores (toneScores Config.hw.params s.block))
      ∧ t.toneMaxIdx.toNat = (scanScores (toneScores Config.hw.params s.block)).idx
      ∧ (s.cfgDebug = true → ∀ k : Fin 50,
          (t.scores[k].toNat : Int) = score Config.hw.params s.block (Config.hw.params.sfWord k.val))
      ∧ (s.cfgDebug = false → t.scores = s.scores)

/-- FILTER: every WAVE entry is the exact filter output and valid, the peaks are the extremes, and nothing else changes:
no byte outside the WAVE window, no other field (R91, R92). -/
def Obligations.FilterCompletes : Prop :=
  ∀ s : State, s.busy = true → s.pending = .filter → blockLoaded s → s.mem.wf = true →
    ∃ t, exec .filter s = .next t ∧ completedStatus 0x5#4 s.status t.status
      ∧ t = { s with
          mem := t.mem, waveValid := t.waveValid, peakLow := t.peakLow, peakHigh := t.peakHigh, status := t.status }
      ∧ (∀ m : Nat, m < Config.hw.params.waveLen → t.waveValue m = fir Config.hw.params s.block m)
      ∧ waveLoaded t
      ∧ (∀ m : Nat, m < Config.hw.params.waveLen → t.peakLow.toInt ≤ t.waveValue m ∧ t.waveValue m ≤ t.peakHigh.toInt)
      ∧ (∃ m, m < Config.hw.params.waveLen ∧ t.waveValue m = t.peakLow.toInt)
      ∧ (∃ m, m < Config.hw.params.waveLen ∧ t.waveValue m = t.peakHigh.toInt)
      ∧ ∀ a : Nat, outsideWave a → t.mem.readByte a = s.mem.readByte a

/-- RECOVER: DCS_RAW, by its fields, from the WAVE RAM and the PEAK registers; neither RAM, no peak and no DCS_RESULT
changes (R37, R107). -/
def Obligations.RecoverCompletes : Prop :=
  ∀ s : State, s.busy = true → s.pending = .recover → waveLoaded s →
    ∃ st w, completedStatus 0x6#4 s.status st
      ∧ dcsRawShows (recoverBits Config.hw.params s.waveValue s.peakLow.toInt s.peakHigh.toInt
          (if s.cfgInvert then 0x7FFFFF#23 else 0#23)) w
      ∧ exec .recover s = .next { s with dcsRaw := w, status := st }

/-- DCS: the filter commit, DCS_RAW, by its fields, from the filter's own outputs, DCS_RESULT from the word the
synchroniser returned; the tone registers and every byte outside the WAVE window stay (R37, R126, R127). -/
def Obligations.DcsCompletes : Prop :=
  ∀ s : State, s.busy = true → s.pending = .dcs → blockLoaded s → s.mem.wf = true →
    ∃ t raw, exec .dcs s = .next t ∧ completedStatus 0x3#4 s.status t.status
      ∧ t = { s with
          mem := t.mem, waveValid := t.waveValid, peakLow := t.peakLow, peakHigh := t.peakHigh
          dcsRaw := t.dcsRaw
          dcsResult := packResolved (raw.bind (resolve Config.hw.params s.cfgAlias))
          status := t.status }
      ∧ raw = recoverBits Config.hw.params (fir Config.hw.params s.block) t.peakLow.toInt t.peakHigh.toInt
          (if s.cfgInvert then 0x7FFFFF#23 else 0#23)
      ∧ dcsRawShows raw t.dcsRaw
      ∧ (∀ m : Nat, m < Config.hw.params.waveLen → t.waveValue m = fir Config.hw.params s.block m)
      ∧ waveLoaded t
      ∧ (∀ m : Nat, m < Config.hw.params.waveLen → t.peakLow.toInt ≤ t.waveValue m ∧ t.waveValue m ≤ t.peakHigh.toInt)
      ∧ (∃ m, m < Config.hw.params.waveLen ∧ t.waveValue m = t.peakLow.toInt)
      ∧ (∃ m, m < Config.hw.params.waveLen ∧ t.waveValue m = t.peakHigh.toInt)
      ∧ ∀ a : Nat, outsideWave a → t.mem.readByte a = s.mem.readByte a

/-- RUN completes; its tone registers are those CLASSIFY gives on the same block, its DCS registers and RAMs those DCS
gives, and the idle registers are IDLE_UPDATE of what the branches found. TONE_RESULT and DCS_RAW show the decision and
the synchroniser's result by their fields. RESULT and everything else stay (R32, R37, R128, R130). -/
def Obligations.RunCompletesAsClassifyAndDcs : Prop :=
  ∀ s : State, s.busy = true → s.pending = .run → blockLoaded s →
    ∃ t tc td, exec .run s = .next t
      ∧ exec .classify { s with pending := .classify } = .next tc
      ∧ exec .dcs { s with pending := .dcs } = .next td
      ∧ completedStatus 0x1#4 s.status t.status
      ∧ t = { s with
          toneResult := tc.toneResult, toneMax := tc.toneMax, toneAvg := tc.toneAvg, toneMaxIdx := tc.toneMaxIdx
          scores := tc.scores
          mem := td.mem, waveValid := td.waveValid, peakLow := td.peakLow, peakHigh := td.peakHigh
          dcsRaw := td.dcsRaw, dcsResult := td.dcsResult
          idleTimeout := t.idleTimeout, sweepPhase := t.sweepPhase, status := t.status }
      ∧ (t.idleTimeout, t.sweepPhase) =
          Config.idleUpdate (tc.toneResult.getLsbD 31) (td.dcsResult.getLsbD 31) s.idleTimeout s.sweepPhase
      ∧ toneResultShows (scanDecision (scanScores (toneScores Config.hw.params s.block))) t.toneResult
      ∧ dcsRawShows (recoverBits Config.hw.params (fir Config.hw.params s.block) t.peakLow.toInt t.peakHigh.toInt
          (if s.cfgInvert then 0x7FFFFF#23 else 0#23)) t.dcsRaw

/-! Host transactions. -/

/-- READ of every register, of SCORE and of the two windows: the value goes to the host and nothing of the engine changes
(R54, R56, R57). That it then stands in `busData` is the model's (log 4). The WAVE window during FILTER, DCS or RUN gives
some value, of which nothing is said; the model's own count of such draws, `draws`, goes up by 1 there (log 5). -/
def Obligations.ReadReturnsTheWord : Prop :=
  ∀ s : State,
    (∀ e ∈ [(0x000, Config.hw.params.coreId), (0x004, s.ctrl &&& 0xF#32), (0x008, s.status &&& 0xFF7F#32),
        (0x00C, 0#32), (0x010, s.arg), (0x014, s.result), (0x018, s.toneResult &&& 0x8000003F#32),
        (0x01C, s.toneMax), (0x020, s.toneAvg), (0x024, s.toneMaxIdx &&& 0x3F#32),
        (0x028, s.dcsResult &&& 0xBFFFFFFF#32), (0x02C, s.dcsRaw &&& 0x807FFFFF#32), (0x030, s.peakLow),
        (0x034, s.peakHigh), (0x038, s.idleTimeout), (0x03C, s.sweepPhase)],
      exec (.read (BitVec.ofNat 13 (e.1 / 4))) s = .next { s with busData := e.2 })
    ∧ (∀ k : Fin 50, exec (.read (BitVec.ofNat 13 ((0x040 + 4 * k.val) / 4))) s = .next { s with busData := s.scores[k] })
    ∧ (∀ j : Nat, j < 4000 → exec (.read (BitVec.ofNat 13 ((0x4000 + 4 * j) / 4))) s = .next { s with
        busData := if s.sampleValid.getLsbD j then 0x80000000#32 ||| (s.sampleRaw j).setWidth 32 else 0#32 })
    ∧ (∀ k : Nat, k < Config.hw.params.waveLen →
        (¬ (s.busy = true ∧ (s.pending = .filter ∨ s.pending = .dcs ∨ s.pending = .run)) →
          exec (.read (BitVec.ofNat 13 ((0x1000 + 4 * k) / 4))) s = .next { s with
            busData := if s.waveValid.getLsbD k then BitVec.ofInt 32 (s.waveValue k) else 0#32 })
        ∧ (s.busy = true ∧ (s.pending = .filter ∨ s.pending = .dcs ∨ s.pending = .run) →
          ∃ v, exec (.read (BitVec.ofNat 13 ((0x1000 + 4 * k) / 4))) s =
            .next { s with busData := v, draws := s.draws + 1 }))

/-- WRITE of CTRL, ARG and the read-only registers in both modes, and of the PEAK registers in mode IDLE (R55). -/
def Obligations.RegisterWriteStoresTheFields : Prop :=
  ∀ (s : State) (v : Word),
    exec (.write 1#13 v) s = .next { s with ctrl := v &&& 0xF#32 }
    ∧ exec (.write 4#13 v) s = .next { s with arg := v }
    ∧ (s.busy = false → exec (.write 12#13 v) s = .next { s with peakLow := v }
      ∧ exec (.write 13#13 v) s = .next { s with peakHigh := v })
    ∧ (∀ n ∈ [0, 5, 6, 7, 8, 9, 10, 11, 14, 15], exec (.write (BitVec.ofNat 13 n) v) s = .next s)
    ∧ ∀ k : Nat, k < 50 → exec (.write (BitVec.ofNat 13 (16 + k)) v) s = .next s

/-- WRITE of a window entry in mode IDLE stores it and sets its valid bit; no other byte, no other valid bit and no
other field changes (R56, R57). -/
def Obligations.WindowWriteStoresTheEntry : Prop :=
  ∀ (s : State) (v : Word), s.busy = false → s.mem.wf = true →
    (∀ j : Nat, j < 4000 → ∃ t, exec (.write (BitVec.ofNat 13 (sampleOffset j / 4)) v) s = .next t
      ∧ t = { s with mem := t.mem, sampleValid := t.sampleValid }
      ∧ t.sampleRaw j = v.extractLsb' 0 12
      ∧ (∀ i : Nat, i < 4000 → t.sampleValid.getLsbD i = (s.sampleValid.getLsbD i || decide (i = j)))
      ∧ ∀ a : Nat, a < sampleOffset j ∨ sampleOffset j + 4 ≤ a → t.mem.readByte a = s.mem.readByte a)
    ∧ (∀ k : Nat, k < Config.hw.params.waveLen → ∃ t, exec (.write (BitVec.ofNat 13 (waveOffset k / 4)) v) s = .next t
      ∧ t = { s with mem := t.mem, waveValid := t.waveValid }
      ∧ t.waveValue k = v.toInt
      ∧ (∀ i : Nat, i < 500 → t.waveValid.getLsbD i = (s.waveValid.getLsbD i || decide (i = k)))
      ∧ ∀ a : Nat, a < waveOffset k ∨ waveOffset k + 4 ≤ a → t.mem.readByte a = s.mem.readByte a)

/-- While BUSY, a write of CMD, of a window entry or of a PEAK register raises BusyError and changes nothing else (R138,
R162). -/
def Obligations.WritesWhileBusyAreRefused : Prop :=
  ∀ (s : State) (v : Word), s.busy = true →
    refusedWith 1#4 2 s (exec (.write 3#13 v) s)
    ∧ refusedWith 1#4 2 s (exec (.write 12#13 v) s) ∧ refusedWith 1#4 2 s (exec (.write 13#13 v) s)
    ∧ (∀ j : Nat, j < 4000 → refusedWith 1#4 2 s (exec (.write (BitVec.ofNat 13 (sampleOffset j / 4)) v) s))
    ∧ ∀ k : Nat, k < Config.hw.params.waveLen →
      refusedWith 1#4 2 s (exec (.write (BitVec.ofNat 13 (waveOffset k / 4)) v) s)

/-- Loading 4000 samples from mode IDLE, one WRITE each, leaves every entry valid with its reading, and changes no other
field but the agenda (R72, R160). The host program stands in the agenda (log 1). -/
def Obligations.LoadBlockLoadsTheBlock : Prop :=
  ∀ (s : State) (r : List (BitVec 12)), r.length = 4000 → s.busy = false → s.mem.wf = true →
    s.agenda = assemble (expand (.loadBlock r)) →
    ∃ t, Sys2Proof.core.run 4000 s = .next t ∧ blockLoaded t
      ∧ (∀ j : Nat, j < 4000 → t.sampleRaw j = r.getD j 0#12)
      ∧ t = { s with agenda := [], mem := t.mem, sampleValid := t.sampleValid }

/-! The tone detector. -/

/-- The angle is bits [20:11] of `j * sf + 1024`, depends only on that sum modulo 2^21, and is `j * sf / 2048` rounded to
nearest, half up, modulo 1024 (R73, R74). -/
def Obligations.AngleIsTheMiddleBits : Prop :=
  ∀ j sf : Nat,
    angle j sf = ((BitVec.ofNat 64 (j * sf + 1024)).extractLsb' 11 10).toNat
    ∧ (∀ j' sf' : Nat, (j * sf + 1024) % 2 ^ 21 = (j' * sf' + 1024) % 2 ^ 21 → angle j sf = angle j' sf')
    ∧ angle j sf = (2 * (j * sf) + 2048) / 4096 % 1024
    ∧ angle j sf < 1024

/-- The score as the sums of R75: every product floored by 64 before it is added, the finished sums floored by 2^16. -/
def Obligations.ScoreIsTheFlooredCorrelation : Prop :=
  ∀ (p : Config.Params) (blk : Nat → Int) (sf : Nat),
    score p blk sf
      = (∑ j ∈ Finset.range 4000, p.sinAt (angle j sf) * blk j / 64) / 65536
          * ((∑ j ∈ Finset.range 4000, p.sinAt (angle j sf) * blk j / 64) / 65536)
        + (∑ j ∈ Finset.range 4000, p.cosAt (angle j sf) * blk j / 64) / 65536
          * ((∑ j ∈ Finset.range 4000, p.cosAt (angle j sf) * blk j / 64) / 65536)

/-- The bounds of R77, for every well-formed configuration and every block of centred samples. -/
def Obligations.ToneValuesStayInBounds : Prop :=
  ∀ (p : Config.Params) (blk : Nat → Int) (sf : Nat), p.wf = true → (∀ j, -512 ≤ blk j ∧ blk j ≤ 511) →
    (∀ j : Nat, -1048064 ≤ p.sinAt (angle j sf) * blk j ∧ p.sinAt (angle j sf) * blk j ≤ 1048576
      ∧ -1048064 ≤ p.cosAt (angle j sf) * blk j ∧ p.cosAt (angle j sf) * blk j ≤ 1048576
      ∧ -16376 ≤ floorShift (p.sinAt (angle j sf) * blk j) 6 ∧ floorShift (p.sinAt (angle j sf) * blk j) 6 ≤ 16384
      ∧ -16376 ≤ floorShift (p.cosAt (angle j sf) * blk j) 6 ∧ floorShift (p.cosAt (angle j sf) * blk j) 6 ≤ 16384)
    ∧ -65504000 ≤ (toneSums p blk sf).i ∧ (toneSums p blk sf).i ≤ 65536000
    ∧ -65504000 ≤ (toneSums p blk sf).q ∧ (toneSums p blk sf).q ≤ 65536000
    ∧ -1000 ≤ floorShift (toneSums p blk sf).i 16 ∧ floorShift (toneSums p blk sf).i 16 ≤ 1000
    ∧ -1000 ≤ floorShift (toneSums p blk sf).q 16 ∧ floorShift (toneSums p blk sf).q 16 ≤ 1000
    ∧ 0 ≤ score p blk sf ∧ score p blk sf ≤ 2000000

/-- The scan is the exact sum, the maximum, and the lowest index that has it (R79). -/
def Obligations.ScanFindsTheLowestMaximum : Prop :=
  ∀ sc : Nat → Int, (∀ k : Nat, k < 50 → 0 ≤ sc k) →
    (scanScores sc).sum = ∑ k ∈ Finset.range 50, sc k
    ∧ (scanScores sc).idx < 50 ∧ sc (scanScores sc).idx = (scanScores sc).max
    ∧ (∀ k : Nat, k < 50 → sc k ≤ (scanScores sc).max)
    ∧ ∀ k : Nat, k < (scanScores sc).idx → sc k < (scanScores sc).max

/-- The decision of R79 and R81: the maximum's index exactly when it passes 50 times the floored average and is not 0;
an entry 0 with the maximum gives none, whatever the others score. -/
def Obligations.DecisionExcludesTheReservedTone : Prop :=
  ∀ sc : Nat → Int, (∀ k : Nat, k < 50 → 0 ≤ sc k) →
    (∀ k : Nat, scanDecision (scanScores sc) = some k ↔
      k ≠ 0 ∧ k < 50 ∧ (∀ i : Nat, i < 50 → sc i ≤ sc k) ∧ (∀ i : Nat, i < k → sc i < sc k)
        ∧ 50 * max 1 (((∑ i ∈ Finset.range 50, sc i) - sc k) / 50) < sc k)
    ∧ ((∀ i : Nat, i < 50 → sc i ≤ sc 0) → scanDecision (scanScores sc) = none)

/-- The bounds of R80, for scores within the bound of R77. -/
def Obligations.ClassifierValuesStayInBounds : Prop :=
  ∀ sc : Nat → Int, (∀ k : Nat, k < 50 → 0 ≤ sc k ∧ sc k ≤ 2000000) →
    0 ≤ (scanScores sc).sum ∧ (scanScores sc).sum ≤ 100000000
    ∧ (scanScores sc).sum - (scanScores sc).max ≤ 98000000
    ∧ 1 ≤ scanAverage (scanScores sc) ∧ scanAverage (scanScores sc) ≤ 1960000
    ∧ 50 ≤ scanAverage (scanScores sc) * 50 ∧ scanAverage (scanScores sc) * 50 ≤ 98000000

/-- A silent block gives no tone, for every configuration (R85). -/
def Obligations.SilentBlockGivesNoTone : Prop :=
  ∀ (p : Config.Params) (blk : Nat → Int), (∀ j : Nat, j < 4000 → blk j = 0) →
    (∀ k : Nat, toneScores p blk k = 0) ∧ scanDecision (scanScores (toneScores p blk)) = none

/-- Parallel lanes, in any grouping and any order, reduce to the sequential scan: the number of lanes cannot be observed
(R83). The shape of the reduction, `scanJoin` over `lanesScan`, is the model's (log 17). -/
def Obligations.LanesReduceToTheSequentialScan : Prop :=
  (∀ (sc : Nat → Int) (lanes : List (List Nat)), (∀ k : Nat, k < 50 → 0 ≤ sc k) →
    lanes.flatten.Perm (List.range 50) → lanesScan sc lanes = scanScores sc)
  ∧ ∀ (sc : Nat → Int) (n : Nat), (∀ k : Nat, k < 50 → 0 ≤ sc k) → 1 ≤ n → n ≤ 50 →
    lanesScan sc (dealtLanes n) = scanScores sc

/-! The filter. -/

/-- The symmetric form and the convolution with the impulse response are the same filter (R86, R88). -/
def Obligations.FilterIsItsImpulseResponse : Prop :=
  ∀ (p : Config.Params) (blk : Nat → Int) (m : Nat), 1 ≤ p.t → fir p blk m = firImpulse p blk m

/-- The filter reads only samples of the block: with N = 4000 no index above N - 3 (R87). -/
def Obligations.FilterReadsInsideTheBlock : Prop :=
  ∀ (p : Config.Params) (blk blk' : Nat → Int) (m : Nat), p.wf = true → m < p.waveLen →
    (∀ j : Nat, 8 * m ≤ j → j ≤ 8 * m + 2 * p.t - 2 → j ≤ 3997 → blk j = blk' j) → fir p blk m = fir p blk' m

/-- Every output is at most 512 * S_TAP in magnitude, below 2^31 / 5, and its stored word is exact (R89). -/
def Obligations.FilterOutputsFitTheWord : Prop :=
  ∀ (p : Config.Params) (blk : Nat → Int) (m : Nat), p.wf = true → (∀ j, -512 ≤ blk j ∧ blk j ≤ 511) →
    |fir p blk m| ≤ 512 * (p.sTap : Int) ∧ 5 * (512 * (p.sTap : Int)) < 2 ^ 31 ∧ (to32 (fir p blk m)).toInt = fir p blk m

/-! The synchroniser. -/

/-- The thresholds multiply first and truncate toward zero, and are monotone (R94). -/
def Obligations.ThresholdTruncatesTowardZero : Prop :=
  (∀ x : Int, 0 ≤ x → threshold x = x * 5 / 16) ∧ (∀ x : Int, x < 0 → threshold x = -(-x * 5 / 16))
    ∧ threshold (-7) = -2 ∧ ∀ x y : Int, x ≤ y → threshold x ≤ threshold y

/-- The peak and the trough case never hold together, whatever the thresholds (R97). -/
def Obligations.MarkAndSpaceExclude : Prop :=
  ∀ (x : SyncInput) (base : Int) (k : Nat), ¬ (qualMark x base k = true ∧ qualSpace x base k = true)

/-- The transition table is the algorithm: from INIT, whatever the working registers hold, the machine reaches DONE with
the result of `recoverBits` and stays there (R98, R99). 2500 rows suffice for the 464 passes of R104. Both check the word
at every completion from the 31st on, the rolling validation that R101 flags (log 18). -/
def Obligations.TransitionTableIsTheAlgorithm : Prop :=
  ∀ (p : Config.Params) (w : Nat → Int) (peakLow peakHigh : Int) (invMask : BitVec 23) (st : SyncState) (n : Nat),
    2500 ≤ n →
    (fsmRun (syncInput p w peakLow peakHigh) invMask n (.init, st)).1
      = .done (recoverBits p w peakLow peakHigh invMask)

/-- `recoverBits` reads no waveform index above 466, and every index up to 466 is in range (R103). -/
def Obligations.SynchroniserReadsInsideTheWaveform : Prop :=
  ∀ (p : Config.Params) (w w' : Nat → Int) (peakLow peakHigh : Int) (invMask : BitVec 23),
    ((∀ k : Nat, k ≤ 466 → w k = w' k) →
      recoverBits p w peakLow peakHigh invMask = recoverBits p w' peakLow peakHigh invMask)
    ∧ (p.wf = true → 466 < p.waveLen)

/-- Each pass increases the read index by 1 or 2 and makes at most one completion and one count increment, so 464 passes
end every run and the counters stay at most 464 (R104). -/
def Obligations.SynchroniserCountersAreBounded : Prop :=
  ∀ x : SyncInput,
    (∀ st : SyncState, (syncAdvance (syncPass x st)).i = st.i + 1 ∨ (syncAdvance (syncPass x st)).i = st.i + 2)
    ∧ (∀ n : Nat, n ≤ 464 → (syncAfter x n).bits ≤ 464 ∧ (syncAfter x n).count ≤ 464)
    ∧ 464 < (syncAfter x 464).i
    ∧ ∀ (n : Nat), 464 ≤ n → syncLoop x n syncInit = syncLoop x 464 syncInit

/-- The first bit completion is at read index 1 or 2, and the next after one at p is at p + 6, p + 7, p + 8 or p + 9
(R105). -/
def Obligations.CompletionsAreSixToNineApart : Prop :=
  ∀ (x : SyncInput) (l : List Nat), completionsFrom x syncMaxPasses syncInit = l →
    (∀ p, l.head? = some p → p = 1 ∨ p = 2)
    ∧ l.IsChain (fun p q => q = p + 6 ∨ q = p + 7 ∨ q = p + 8 ∨ q = p + 9)

/-- A word is accepted exactly when it is not all-zero or all-one, its low 8 bits equal its top 8 bits, and its low 23
bits are a codeword (R100). -/
def Obligations.CheckIsTheFourTests : Prop :=
  ∀ (p : Config.Params) (word : BitVec 31), syncCheck p word = true ↔
    word ≠ 0#31 ∧ word ≠ 0x7FFFFFFF#31 ∧ word.toNat % 256 = word.toNat / 2 ^ 23
      ∧ golayEncode p (BitVec.ofNat 12 word.toNat) = BitVec.ofNat 23 word.toNat

/-! The code and the resolver. -/

/-- The laws of R110, for every choice of rows. -/
def Obligations.GolayLawsHoldForEveryTable : Prop :=
  ∀ p : Config.Params,
    (∀ a b : BitVec 12, golayEncode p a ^^^ golayEncode p b = golayEncode p (a ^^^ b))
    ∧ golayEncode p 0#12 = 0#23
    ∧ (∀ d : BitVec 12, golayValid p (golayEncode p d) = true)
    ∧ (Finset.univ.filter fun w : BitVec 23 => golayValid p w = true).card = 4096
    ∧ (∀ v w : BitVec 23, golayValid p v = true → golayValid p w = true → golayValid p (v ^^^ w) = true)
    ∧ (∀ (w : BitVec 23) (b : Nat), golayValid p w = true → 12 ≤ b → b < 23 →
        golayValid p (w ^^^ BitVec.twoPow 23 b) = false)
    ∧ ∀ (w : BitVec 23) (b : Nat), golayValid p w = true → b < 12 →
        (golayValid p (w ^^^ BitVec.twoPow 23 b) = true ↔ p.row b = 0#11)

/-- The codeword is the data in bits [11:0] and, in bits [22:12], the XOR of the rows of the set data bits (R108). -/
def Obligations.CodewordIsDataAndRowParity : Prop :=
  ∀ (p : Config.Params) (d : BitVec 12),
    (golayEncode p d).extractLsb' 0 12 = d
    ∧ ∀ j : Nat, j < 11 → (golayEncode p d).getLsbD (12 + j) =
        decide ((∑ b ∈ Finset.range 12, if d.getLsbD b && (p.row b).getLsbD j then 1 else 0) % 2 = 1)

/-- The search returns the first rotation, of 1 to 23, that has the marker, with its low 9 bits and the alias entry they
name (R114). The 23rd rotation is the word itself. -/
def Obligations.ResolveFindsTheFirstMarker : Prop :=
  ∀ (p : Config.Params) (la : Bool) (raw : BitVec 23),
    rotr23^[23] raw = raw
    ∧ (∀ r : Resolved, resolve p la raw = some r ↔
      1 ≤ r.rot ∧ r.rot ≤ 23
      ∧ (rotr23^[r.rot] raw).extractLsb' 9 3 = 0b100#3
      ∧ (∀ k : Nat, 1 ≤ k → k < r.rot → (rotr23^[k] raw).extractLsb' 9 3 ≠ 0b100#3)
      ∧ r.key = (rotr23^[r.rot] raw).extractLsb' 0 9
      ∧ r.code = BitVec.ofNat 16 ((if la then p.aliasLa else p.aliasStd).getD r.key.toNat 0))

/-- The search fails exactly when, reading the 23 bits as a cycle, no one bit is followed below by two zero bits; it fails
for 0, 0x7FFFFF and 0x555555 and finds k = 13 and key 341 in 0x2AAAAA (R116). -/
def Obligations.ResolveFailsWithoutACyclicMarker : Prop :=
  ∀ (p : Config.Params) (la : Bool),
    (∀ raw : BitVec 23, resolve p la raw = none ↔
      ∀ q : Nat, q < 23 →
        ¬ (raw.getLsbD q = true ∧ raw.getLsbD ((q + 22) % 23) = false ∧ raw.getLsbD ((q + 21) % 23) = false))
    ∧ resolve p la 0#23 = none ∧ resolve p la 0x7FFFFF#23 = none ∧ resolve p la 0x555555#23 = none
    ∧ ∃ code, resolve p la 0x2AAAAA#23 = some { rot := 13, key := 341#9, code := code }

/-- The rotation property under its two hypotheses on the configuration: every rotation of a codeword is a codeword, and
the rotations of a codeword that resolve have one code (R111, R117). Then a rotated codeword resolves exactly when the
codeword does, and to the same code. -/
def Obligations.RotatedCodewordsResolveAlike : Prop :=
  ∀ (p : Config.Params) (la : Bool),
    (∀ w : BitVec 23, golayValid p w = true → golayValid p (rotr23 w) = true) →
    (∀ (w : BitVec 23) (r r' : Resolved), golayValid p w = true → resolve p la w = some r →
      resolve p la (rotr23 w) = some r' → r.code = r'.code) →
    ∀ (w : BitVec 23) (m : Nat), golayValid p w = true →
      (resolve p la (rotr23^[m] w)).map Resolved.code = (resolve p la w).map Resolved.code

/-- The layout of DCS_RESULT and of a RESOLVE result: FOUND, ROT, KEY and CODE, bit 30 zero; all 0 for none (R36). -/
def Obligations.ResolvedWordHasItsFields : Prop :=
  (packResolved none = 0#32)
  ∧ ∀ (p : Config.Params) (la : Bool) (raw : BitVec 23) (r : Resolved), resolve p la raw = some r →
    (packResolved (some r)).getLsbD 31 = true ∧ (packResolved (some r)).getLsbD 30 = false
    ∧ ((packResolved (some r)).extractLsb' 25 5).toNat = r.rot
    ∧ (packResolved (some r)).extractLsb' 16 9 = r.key ∧ (packResolved (some r)).extractLsb' 0 16 = r.code

/-! The whole machine. -/

/-- The invariant holds at reset. -/
def Obligations.InvariantHoldsAtReset : Prop := State.reset.Inv

/-- Every step keeps the invariant: the memory's canonical form, reserved bits 0, legal codes in STATUS, no valid WAVE
entry at or above L, and a pending command that can complete. -/
def Obligations.EveryStepKeepsTheInvariant : Prop :=
  ∀ s t : State, s.Inv → step s = .next t → t.Inv

/-- No step of a state with the invariant faults, and none is refused when the host presents well-formed records: every
transaction in every mode has an outcome (R134, R156). A malformed record is the model's refusal (log 12). -/
def Obligations.NoStepStops : Prop :=
  ∀ s : State, s.Inv →
    (∀ f, step s ≠ .fault f)
    ∧ (agendaWellFormed s → ∃ t, step s = .next t ∧ t.Inv ∧ agendaWellFormed t)

/-- Every accepted command completes: within one step more than the moves the host has left, the machine has been in mode
IDLE (R123). That an engine with no more moves of the host completes is the model's form of weak fairness (log 3). -/
def Obligations.EveryAcceptedCommandEnds : Prop :=
  ∀ s : State, s.Inv → agendaWellFormed s → s.busy = true →
    ∃ (k : Nat) (t : State), k ≤ s.agenda.length + 1 ∧ Sys2Proof.core.run k s = .next t ∧ t.busy = false

/-- Wherever the completion falls among the host's transactions, it commits the same: after any of the host's moves made
while BUSY (transaction records, CMD words presented at the CMD register, raw accesses), the completion gives the state
it would have given before them, but for CTRL, ARG, STATUS, the value last read and the draws, which the moves themselves
change (R52, R59, R122, R162). The entries of the schedule are the model's (log 3), and so is the shape of a raw access
(log 14). -/
def Obligations.CompletionFallsAnywhere : Prop :=
  ∀ (s t : State) (l rest : List Event), s.busy = true → (∀ e ∈ l, isHostMove e ∧ eventWellFormed e) →
    step { s with agenda := .complete :: rest } = .next t →
    ∃ t' : State, Sys2Proof.core.run (l.length + 1) { s with agenda := l ++ .complete :: rest } = .next t'
      ∧ t' = { t with ctrl := t'.ctrl, arg := t'.arg, status := t'.status, busData := t'.busData, draws := t'.draws }
      ∧ t'.busy = false ∧ t'.done = true ∧ t'.lastOp = t.lastOp

/-- A completion is a function of what R131 lists, each item as the command's operands require: two busy states that agree
on the command with its operand, the latched configuration, the valid bits, the block for a command that consumes it, the
waveform and the peaks for RECOVER, and the idle registers for RUN commit the same values (R124, R131). So the live CTRL
and ARG, the error bits, the moves to come, the old result registers, and for DCS and RUN the old WAVE contents and peaks
(R125) do not matter. -/
def Obligations.CompletionReadsOnlyItsInputs : Prop :=
  ∀ (s s' t : State), s.busy = true → s'.busy = true → s.mem.wf = true → s'.mem.wf = true → sameInputs s s' →
    exec s.pending.toInstr s = .next t →
    ∃ t', exec s'.pending.toInstr s' = .next t' ∧ sameCommit s.cfgDebug s.pending t t'

/-- The DetectorConfig fields change only in three ways: CTRL by a host write of CTRL, IDLE_TIMEOUT and SWEEP_PHASE by the
completion of RUN, and all of them by reset (R159). -/
def Obligations.ConfigurationChangesInThreeWays : Prop :=
  ∀ s t : State, step s = .next t →
    (t.ctrl ≠ s.ctrl →
      (∃ rest, s.agenda = .reset :: rest)
      ∨ (∃ r rest v, s.agenda = .word (.bus r) :: rest ∧ decode (.bus r) = .ok (.write 1#13 v))
      ∨ ∃ off size v rest, s.agenda = .access true off size v :: rest ∧ off = 4#15 ∧ size = 4)
    ∧ ((t.idleTimeout ≠ s.idleTimeout ∨ t.sweepPhase ≠ s.sweepPhase) →
      (∃ rest, s.agenda = .reset :: rest)
      ∨ (s.busy = true ∧ s.pending = .run ∧ (s.agenda = [] ∨ ∃ rest, s.agenda = .complete :: rest)))
end

