-- ==== Sys2Proof/Laws/Memory.lean ====
section
/-! SUPPORT. The laws of the memory: a read after a write to the same address gives what was written, a write leaves
every other address alone, and every write keeps the canonical form. -/

namespace Sys2Proof.Machine

@[simp] theorem Memory.readByte_nil (a : Nat) : Memory.readByte [] a = unlistedByte := rfl

theorem Memory.wfFrom_mono {m : Memory} {lo lo' : Nat} (h : lo ≤ lo') (hm : Memory.wfFrom lo' m = true) :
    Memory.wfFrom lo m = true := by
  cases m with
  | nil => rfl
  | cons e r =>
    simp only [Memory.wfFrom, Bool.and_eq_true, decide_eq_true_eq] at hm ⊢
    exact ⟨⟨by omega, hm.1.2⟩, hm.2⟩

/-- A canonical memory lists nothing below its first address. -/
theorem Memory.readByte_below {m : Memory} {lo a : Nat} (hm : Memory.wfFrom lo m = true) (h : a < lo) :
    m.readByte a = unlistedByte := by
  induction m generalizing lo with
  | nil => rfl
  | cons e r ih =>
    simp only [Memory.wfFrom, Bool.and_eq_true, decide_eq_true_eq] at hm
    simp only [Memory.readByte]
    rw [if_neg (by omega)]
    exact ih hm.2 (by omega)

/-- A write leaves every other address alone, in any memory. -/
theorem Memory.readByte_writeByte_ne (m : Memory) {a c : Nat} (b : Byte) (h : c ≠ a) :
    (m.writeByte a b).readByte c = m.readByte c := by
  induction m with
  | nil =>
    simp only [Memory.writeByte]
    split <;> simp [Memory.readByte, Ne.symm h]
  | cons e r ih =>
    obtain ⟨a', b'⟩ := e
    simp only [Memory.writeByte]
    split
    · split
      · rfl
      · simp [Memory.readByte, Ne.symm h]
    · split
      · rename_i hab
        subst hab
        split <;> simp [Memory.readByte, Ne.symm h]
      · simp only [Memory.readByte]
        split
        · rfl
        · exact ih

/-- A read after a write to the same address gives what was written. -/
theorem Memory.readByte_writeByte_self {m : Memory} (a : Nat) (b : Byte) {lo : Nat}
    (hm : Memory.wfFrom lo m = true) : (m.writeByte a b).readByte a = b := by
  induction m generalizing lo with
  | nil =>
    simp only [Memory.writeByte]
    split
    · rename_i hb
      simp [hb]
    · simp [Memory.readByte]
  | cons e r ih =>
    obtain ⟨a', b'⟩ := e
    simp only [Memory.wfFrom, Bool.and_eq_true, decide_eq_true_eq] at hm
    simp only [Memory.writeByte]
    split
    · rename_i hlt
      split
      · rename_i hb
        rw [hb]
        simp only [Memory.readByte]
        rw [if_neg (by omega)]
        exact Memory.readByte_below hm.2 (by omega)
      · simp [Memory.readByte]
    · split
      · rename_i hab
        subst hab
        split
        · rename_i hb
          rw [hb]
          exact Memory.readByte_below hm.2 (Nat.lt_succ_self _)
        · simp [Memory.readByte]
      · rename_i hne
        simp only [Memory.readByte]
        rw [if_neg hne]
        exact ih hm.2

/-- A write keeps the canonical form from any bound at or below its address. -/
theorem Memory.wfFrom_writeByte {m : Memory} {lo a : Nat} (b : Byte) (h : lo ≤ a)
    (hm : Memory.wfFrom lo m = true) : Memory.wfFrom lo (m.writeByte a b) = true := by
  induction m generalizing lo with
  | nil =>
    simp only [Memory.writeByte]
    split
    · rfl
    · rename_i hb
      simp [Memory.wfFrom, h, hb]
  | cons e r ih =>
    obtain ⟨a', b'⟩ := e
    simp only [Memory.writeByte]
    have hm' := hm
    simp only [Memory.wfFrom, Bool.and_eq_true, decide_eq_true_eq] at hm
    split
    · rename_i hlt
      split
      · exact hm'
      · rename_i hb
        simp only [Memory.wfFrom, Bool.and_eq_true, decide_eq_true_eq]
        exact ⟨⟨h, hb⟩, ⟨by omega, hm.1.2⟩, hm.2⟩
    · split
      · rename_i hab
        subst hab
        split
        · exact Memory.wfFrom_mono (by omega) hm.2
        · rename_i hb
          simp only [Memory.wfFrom, Bool.and_eq_true, decide_eq_true_eq]
          exact ⟨⟨h, hb⟩, hm.2⟩
      · simp only [Memory.wfFrom, Bool.and_eq_true, decide_eq_true_eq]
        exact ⟨hm.1, ih (by omega) hm.2⟩

theorem Memory.wf_writeByte {m : Memory} (a : Nat) (b : Byte) (hm : m.wf = true) : (m.writeByte a b).wf = true :=
  Memory.wfFrom_writeByte b (Nat.zero_le a) hm

/-- Every memory operation keeps the canonical form. -/
theorem Memory.wf_writeWord {m : Memory} (a : Nat) (w : Word) (hm : m.wf = true) : (m.writeWord a w).wf = true := by
  simp only [Memory.writeWord]
  exact Memory.wf_writeByte _ _ (Memory.wf_writeByte _ _ (Memory.wf_writeByte _ _ (Memory.wf_writeByte _ _ hm)))

/-- A word write leaves every byte outside its four alone. -/
theorem Memory.readByte_writeWord_outside (m : Memory) {a c : Nat} (w : Word) (h : c < a ∨ a + 4 ≤ c) :
    (m.writeWord a w).readByte c = m.readByte c := by
  simp only [Memory.writeWord]
  rw [Memory.readByte_writeByte_ne _ _ (by omega), Memory.readByte_writeByte_ne _ _ (by omega),
    Memory.readByte_writeByte_ne _ _ (by omega), Memory.readByte_writeByte_ne _ _ (by omega)]

/-- A word write leaves every word that it does not overlap alone. -/
theorem Memory.readWord_writeWord_outside (m : Memory) {a c : Nat} (w : Word) (h : c + 4 ≤ a ∨ a + 4 ≤ c) :
    (m.writeWord a w).readWord c = m.readWord c := by
  simp only [Memory.readWord]
  rw [Memory.readByte_writeWord_outside m w (by omega), Memory.readByte_writeWord_outside m w (by omega),
    Memory.readByte_writeWord_outside m w (by omega), Memory.readByte_writeWord_outside m w (by omega)]

/-- The four lanes make up the word (R51). -/
theorem byteLane_append (w : Word) : byteLane w 3 ++ byteLane w 2 ++ byteLane w 1 ++ byteLane w 0 = w := by
  ext i hi
  simp only [byteLane, BitVec.getElem_append, BitVec.getElem_extractLsb']
  split
  · simp only [Nat.mul_zero, Nat.zero_add]
    rw [BitVec.getLsbD_eq_getElem (by omega)]
  · split
    · rw [BitVec.getLsbD_eq_getElem (by omega)]; congr 1; omega
    · split
      · rw [BitVec.getLsbD_eq_getElem (by omega)]; congr 1; omega
      · rw [BitVec.getLsbD_eq_getElem (by omega)]; congr 1; omega

/-- A word read after a word write to the same address gives the word written. -/
theorem Memory.readWord_writeWord_self {m : Memory} (a : Nat) (w : Word) (hm : m.wf = true) :
    (m.writeWord a w).readWord a = w := by
  have h0 := Memory.wf_writeByte a (byteLane w 0) hm
  have h1 := Memory.wf_writeByte (a + 1) (byteLane w 1) h0
  have h2 := Memory.wf_writeByte (a + 2) (byteLane w 2) h1
  have r3 : (m.writeWord a w).readByte (a + 3) = byteLane w 3 := Memory.readByte_writeByte_self _ _ h2
  have r2 : (m.writeWord a w).readByte (a + 2) = byteLane w 2 := by
    simp only [Memory.writeWord]
    rw [Memory.readByte_writeByte_ne _ _ (by omega)]
    exact Memory.readByte_writeByte_self _ _ h1
  have r1 : (m.writeWord a w).readByte (a + 1) = byteLane w 1 := by
    simp only [Memory.writeWord]
    rw [Memory.readByte_writeByte_ne _ _ (by omega), Memory.readByte_writeByte_ne _ _ (by omega)]
    exact Memory.readByte_writeByte_self _ _ h0
  have r0 : (m.writeWord a w).readByte a = byteLane w 0 := by
    simp only [Memory.writeWord]
    rw [Memory.readByte_writeByte_ne _ _ (by omega), Memory.readByte_writeByte_ne _ _ (by omega),
      Memory.readByte_writeByte_ne _ _ (by omega)]
    exact Memory.readByte_writeByte_self _ _ hm
  rw [Memory.readWord, r3, r2, r1, r0]
  exact byteLane_append w

end Sys2Proof.Machine
end

