-- ==== Sys2Proof/Laws/Fir.lean ====
section
/-! SUPPORT. What the store of the filter outputs and the filter commit do (R91), the range of a centred sample (R20)
and the extremes (R90). -/

namespace Sys2Proof.Machine

/-- Storing one output more is the store of the outputs before it, then one entry. -/
theorem storeWave_succ (x : Nat → Int) (n : Nat) (s : State) :
    storeWave x (n + 1) s = (storeWave x n s).setWave n (to32 (x n)) := by
  simp [storeWave, List.range_succ]

/-- The store of the outputs changes the memory and the WAVE valid bits, and no other field. -/
theorem storeWave_eq (x : Nat → Int) (n : Nat) (s : State) :
    storeWave x n s = { s with mem := (storeWave x n s).mem, waveValid := (storeWave x n s).waveValid } := by
  induction n with
  | zero => rfl
  | succ n ih => rw [storeWave_succ, State.setWave, ih]

/-- The store of the outputs keeps the memory's canonical form. -/
theorem storeWave_wf (x : Nat → Int) (n : Nat) {s : State} (h : s.mem.wf = true) :
    (storeWave x n s).mem.wf = true := by
  induction n with
  | zero => exact h
  | succ n ih =>
    rw [storeWave_succ]
    exact Memory.wf_writeWord _ _ ih

/-- A byte outside every stored entry is unchanged. -/
theorem storeWave_readByte (x : Nat → Int) (n : Nat) (s : State) {a : Nat}
    (h : ∀ m, m < n → a < waveOffset m ∨ waveOffset m + 4 ≤ a) :
    (storeWave x n s).mem.readByte a = s.mem.readByte a := by
  induction n with
  | zero => rfl
  | succ n ih =>
    rw [storeWave_succ, State.setWave]
    rw [Memory.readByte_writeWord_outside _ _ (h n (Nat.lt_succ_self n))]
    exact ih fun m hm => h m (Nat.lt_succ_of_lt hm)

/-- Each stored entry reads back as the word stored to it. -/
theorem storeWave_readWord (x : Nat → Int) {n m : Nat} {s : State} (h : s.mem.wf = true) (hm : m < n) :
    (storeWave x n s).mem.readWord (waveOffset m) = to32 (x m) := by
  induction n with
  | zero => omega
  | succ n ih =>
    rw [storeWave_succ, State.setWave]
    rcases Nat.lt_succ_iff_lt_or_eq.1 hm with hlt | rfl
    · rw [Memory.readWord_writeWord_outside _ _ (by simp only [waveOffset]; omega)]
      exact ih hlt
    · exact Memory.readWord_writeWord_self _ _ (storeWave_wf x m h)

/-- The valid bits of exactly the stored entries are set, and no other changes. -/
theorem storeWave_valid (x : Nat → Int) {n : Nat} (s : State) (hn : n ≤ 500) (i : Nat) :
    (storeWave x n s).waveValid.getLsbD i = (s.waveValid.getLsbD i || decide (i < n)) := by
  induction n with
  | zero => simp [storeWave]
  | succ n ih =>
    rw [storeWave_succ, State.setWave, BitVec.getLsbD_or, ih (by omega), BitVec.getLsbD_twoPow]
    by_cases h1 : i < n <;> by_cases h2 : n = i <;> simp [h1, h2] <;> omega

/-- What is stored depends on the memory and the WAVE valid bits before it alone. -/
theorem storeWave_congr (x : Nat → Int) (n : Nat) {s t : State} (hm : s.mem = t.mem)
    (hv : s.waveValid = t.waveValid) :
    (storeWave x n s).mem = (storeWave x n t).mem ∧ (storeWave x n s).waveValid = (storeWave x n t).waveValid := by
  induction n with
  | zero => exact ⟨hm, hv⟩
  | succ n ih => simp only [storeWave_succ, State.setWave, ih.1, ih.2, and_self]

/-- A centred sample lies in [-512, 511] (R20). -/
theorem centre_bounds (r : BitVec 12) : -512 ≤ centre r ∧ centre r ≤ 511 := by
  have h := r.isLt
  simp only [centre, floorShift, Int.shiftRight_eq_div_pow]
  omega

theorem State.block_bounds (s : State) (j : Nat) : -512 ≤ s.block j ∧ s.block j ≤ 511 := centre_bounds _

/-- The least of the first outputs is one of them, and no greater than any. -/
theorem leastUpTo_spec (x : Nat → Int) (n : Nat) :
    (∃ m, m ≤ n ∧ leastUpTo x n = x m) ∧ ∀ m, m ≤ n → leastUpTo x n ≤ x m := by
  induction n with
  | zero => exact ⟨⟨0, le_refl 0, rfl⟩, fun m hm => by rw [Nat.le_zero.1 hm]; exact le_refl _⟩
  | succ n ih =>
    obtain ⟨⟨k, hk, hx⟩, hall⟩ := ih
    simp only [leastUpTo]
    refine ⟨?_, ?_⟩
    · rcases le_total (leastUpTo x n) (x (n + 1)) with h | h
      · exact ⟨k, by omega, by rw [min_eq_left h, hx]⟩
      · exact ⟨n + 1, le_refl _, by rw [min_eq_right h]⟩
    · intro m hm
      rcases Nat.le_or_eq_of_le_succ hm with h | h
      · exact le_trans (min_le_left _ _) (hall m h)
      · rw [h]; exact min_le_right _ _

/-- The greatest of the first outputs is one of them, and no less than any. -/
theorem greatestUpTo_spec (x : Nat → Int) (n : Nat) :
    (∃ m, m ≤ n ∧ greatestUpTo x n = x m) ∧ ∀ m, m ≤ n → x m ≤ greatestUpTo x n := by
  induction n with
  | zero => exact ⟨⟨0, le_refl 0, rfl⟩, fun m hm => by rw [Nat.le_zero.1 hm]; exact le_refl _⟩
  | succ n ih =>
    obtain ⟨⟨k, hk, hx⟩, hall⟩ := ih
    simp only [greatestUpTo]
    refine ⟨?_, ?_⟩
    · rcases le_total (greatestUpTo x n) (x (n + 1)) with h | h
      · exact ⟨n + 1, le_refl _, by rw [max_eq_right h]⟩
      · exact ⟨k, by omega, by rw [max_eq_left h, hx]⟩
    · intro m hm
      rcases Nat.le_or_eq_of_le_succ hm with h | h
      · exact le_trans (hall m h) (le_max_left _ _)
      · rw [h]; exact le_max_right _ _

/-- The filter commit changes the memory, the WAVE valid bits and the two peaks, and no other field (R91). -/
theorem commitFir_eq (p : Config.Params) (s : State) :
    commitFir p s = { s with
      mem := (storeWave (fir p s.block) p.waveLen s).mem
      waveValid := (storeWave (fir p s.block) p.waveLen s).waveValid
      peakLow := to32 (firPeakLow p s.block)
      peakHigh := to32 (firPeakHigh p s.block) } := by
  rw [commitFir, storeWave_eq]

end Sys2Proof.Machine
end

