-- ==== Sys2Proof/Laws/Flags.lean ====
section
/-! SUPPORT. What each STATUS update does, bit by bit: raising an error, the W1C write, acceptance and completion. -/

namespace Sys2Proof.Machine

/-- A property of every bit of a 32-bit word holds once it holds of the first 32 bits. -/
theorem word_bits {P : Nat → Prop} (h : ∀ b, b < 32 → P b) (h' : ∀ b, 32 ≤ b → P b) : ∀ b, P b := by
  intro b
  rcases Nat.lt_or_ge b 32 with hb | hb
  · exact h b hb
  · exact h' b hb

theorem statusAccepted_bit (st : Word) (b : Nat) :
    (statusAccepted st).getLsbD b = (decide (b = 0) || (st.getLsbD b && !decide (b = 1))) := by
  revert b
  apply word_bits
  · intro b hb
    interval_cases b <;> simp [statusAccepted, statusBusyMask, statusDoneMask]
  · intro b hb
    rw [BitVec.getLsbD_of_ge _ _ hb, BitVec.getLsbD_of_ge _ _ hb]
    simp; omega

theorem statusCleared_bit (v st : Word) (b : Nat) :
    (statusCleared v st).getLsbD b = (st.getLsbD b && !(decide (1 ≤ b ∧ b ≤ 6) && v.getLsbD b)) := by
  revert b
  apply word_bits
  · intro b hb
    interval_cases b <;> simp [statusCleared, w1cMask]
  · intro b hb
    rw [BitVec.getLsbD_of_ge _ _ hb, BitVec.getLsbD_of_ge _ _ hb]
    simp

theorem statusRaised_bit_other (e : EngineError) (st : Word) (b : Nat) (h : e.mask.getLsbD b = false)
    (hb : b < 8 ∨ 12 ≤ b) : (statusRaised e st).getLsbD b = st.getLsbD b := by
  rcases Nat.lt_or_ge b 32 with hlt | hge
  · cases e <;> interval_cases b <;> first
      | omega
      | (exfalso; revert h; decide)
      | simp [statusRaised, lastErrMask, EngineError.mask, EngineError.code]
  · rw [BitVec.getLsbD_of_ge _ _ hge, BitVec.getLsbD_of_ge _ _ hge]

theorem statusRaised_code (e : EngineError) (st : Word) : (statusRaised e st).extractLsb' 8 4 = e.code := by
  apply BitVec.eq_of_getLsbD_eq
  intro i hi
  cases e <;> interval_cases i <;> simp [statusRaised, lastErrMask, EngineError.mask, EngineError.code]

/-- Raising BusyError. -/
theorem raisedStatus_busy (st : Word) : raisedStatus 1#4 2 st (statusRaised .busy st) := by
  refine ⟨by simp [statusRaised, lastErrMask, EngineError.mask, EngineError.code], statusRaised_code .busy st, ?_⟩
  intro b hb hr
  refine statusRaised_bit_other _ _ _ ?_ hr
  simp only [EngineError.mask, BitVec.getLsbD_ofNat]
  rcases Nat.lt_or_ge b 32 with h | h
  · interval_cases b <;> first | omega | decide
  · simp; omega

/-- Raising CommandError. -/
theorem raisedStatus_command (st : Word) : raisedStatus 2#4 3 st (statusRaised .command st) := by
  refine ⟨by simp [statusRaised, lastErrMask, EngineError.mask, EngineError.code], statusRaised_code .command st, ?_⟩
  intro b hb hr
  refine statusRaised_bit_other _ _ _ ?_ hr
  simp only [EngineError.mask, BitVec.getLsbD_ofNat]
  rcases Nat.lt_or_ge b 32 with h | h
  · interval_cases b <;> first | omega | decide
  · simp; omega

/-- Raising OperandError. -/
theorem raisedStatus_operand (st : Word) : raisedStatus 3#4 4 st (statusRaised .operand st) := by
  refine ⟨by simp [statusRaised, lastErrMask, EngineError.mask, EngineError.code], statusRaised_code .operand st, ?_⟩
  intro b hb hr
  refine statusRaised_bit_other _ _ _ ?_ hr
  simp only [EngineError.mask, BitVec.getLsbD_ofNat]
  rcases Nat.lt_or_ge b 32 with h | h
  · interval_cases b <;> first | omega | decide
  · simp; omega

/-- Raising IncompleteError. -/
theorem raisedStatus_incomplete (st : Word) : raisedStatus 4#4 5 st (statusRaised .incomplete st) := by
  refine ⟨by simp [statusRaised, lastErrMask, EngineError.mask, EngineError.code],
    statusRaised_code .incomplete st, ?_⟩
  intro b hb hr
  refine statusRaised_bit_other _ _ _ ?_ hr
  simp only [EngineError.mask, BitVec.getLsbD_ofNat]
  rcases Nat.lt_or_ge b 32 with h | h
  · interval_cases b <;> first | omega | decide
  · simp; omega

/-- Raising AddressError. -/
theorem raisedStatus_address (st : Word) : raisedStatus 5#4 6 st (statusRaised .address st) := by
  refine ⟨by simp [statusRaised, lastErrMask, EngineError.mask, EngineError.code], statusRaised_code .address st, ?_⟩
  intro b hb hr
  refine statusRaised_bit_other _ _ _ ?_ hr
  simp only [EngineError.mask, BitVec.getLsbD_ofNat]
  rcases Nat.lt_or_ge b 32 with h | h
  · interval_cases b <;> first | omega | decide
  · simp; omega

/-- A completion's STATUS. -/
theorem completedStatus_of (op : BitVec 4) (st : Word) : completedStatus op st (statusCompleted op st) := by
  refine ⟨?_, ?_, ?_, ?_⟩
  · simp [statusCompleted, lastOpMask, statusBusyMask, statusDoneMask]
  · simp [statusCompleted, lastOpMask, statusBusyMask, statusDoneMask]
  · apply BitVec.eq_of_getLsbD_eq
    intro i hi
    interval_cases i <;> simp [statusCompleted, lastOpMask, statusBusyMask, statusDoneMask]
  · intro b hb
    rcases Nat.lt_or_ge b 32 with h | h
    · interval_cases b <;> first
        | omega
        | simp [statusCompleted, lastOpMask, statusBusyMask, statusDoneMask]
    · rw [BitVec.getLsbD_of_ge _ _ h, BitVec.getLsbD_of_ge _ _ h]

/-- An error changes neither the mode nor DONE. -/
@[simp] theorem State.raise_busy (s : State) (e : EngineError) : (s.raise e).busy = s.busy := by
  simp only [State.busy, State.raise]
  exact statusRaised_bit_other e _ _ (by cases e <;> decide) (by omega)

/-- A host write of STATUS does not change the mode. -/
@[simp] theorem State.clearStatus_busy (s : State) (v : Word) : (s.clearStatus v).busy = s.busy := by
  show (statusCleared v s.status).getLsbD 0 = s.status.getLsbD 0
  rw [statusCleared_bit]
  simp

/-- A completion leaves mode IDLE. -/
@[simp] theorem State.finish_busy (s : State) (c : Command) : (s.finish c).busy = false :=
  (completedStatus_of c.opcode s.status).1

@[simp] theorem State.setSample_busy (s : State) (j : Nat) (r : BitVec 12) : (s.setSample j r).busy = s.busy := rfl

@[simp] theorem State.setWave_busy (s : State) (k : Nat) (v : Word) : (s.setWave k v).busy = s.busy := rfl

@[simp] theorem State.refusedRead_busy (s : State) : s.refusedRead.busy = s.busy := State.raise_busy s .address

end Sys2Proof.Machine
end

