-- ==== Sys2Proof/Laws/Golay.lean ====
section
/-! SUPPORT. The parity is linear in the data, whatever the rows (R108), what a codeword is in terms of it (R109), and the
bits of a rotation (R16). -/

namespace Sys2Proof.Machine

/-- The rows add up by XOR whatever accumulator they start from (R108). -/
theorem golayParity_foldl (p : Config.Params) (d : BitVec 12) (l : List Nat) (acc : BitVec 11) :
    l.foldl (fun acc b => if d.getLsbD b then acc ^^^ p.row b else acc) acc
      = acc ^^^ l.foldl (fun acc b => if d.getLsbD b then acc ^^^ p.row b else acc) 0#11 := by
  induction l generalizing acc with
  | nil => simp
  | cons b r ih =>
    simp only [List.foldl_cons]
    rw [ih (if d.getLsbD b then acc ^^^ p.row b else acc), ih (if d.getLsbD b then 0#11 ^^^ p.row b else 0#11)]
    split <;> simp [BitVec.xor_assoc]

/-- The parity of an XOR is the XOR of the parities, for every choice of rows (R108). -/
theorem golayParity_xor (p : Config.Params) (a b : BitVec 12) :
    golayParity p (a ^^^ b) = golayParity p a ^^^ golayParity p b := by
  have h : ∀ l : List Nat,
      l.foldl (fun acc k => if (a ^^^ b).getLsbD k then acc ^^^ p.row k else acc) 0#11
        = l.foldl (fun acc k => if a.getLsbD k then acc ^^^ p.row k else acc) 0#11
          ^^^ l.foldl (fun acc k => if b.getLsbD k then acc ^^^ p.row k else acc) 0#11 := by
    intro l
    induction l with
    | nil => simp
    | cons k r ih =>
      simp only [List.foldl_cons]
      rw [golayParity_foldl p (a ^^^ b), golayParity_foldl p a, golayParity_foldl p b, ih]
      rw [BitVec.getLsbD_xor]
      generalize r.foldl (fun acc k => if a.getLsbD k then acc ^^^ p.row k else acc) 0#11 = x
      generalize r.foldl (fun acc k => if b.getLsbD k then acc ^^^ p.row k else acc) 0#11 = y
      generalize p.row k = z
      cases a.getLsbD k <;> cases b.getLsbD k <;> ext i hi <;> simp <;>
        cases x[i] <;> cases y[i] <;> cases z[i] <;> rfl
  exact h _

/-- A word is a codeword exactly when its high 11 bits are the parity of its low 12 (R109). -/
theorem golayValid_iff (p : Config.Params) (w : BitVec 23) :
    golayValid p w = true ↔ golayParity p (w.setWidth 12) = w.extractLsb' 12 11 := by
  simp only [golayValid, golayEncode, beq_iff_eq]
  generalize golayParity p (w.setWidth 12) = q
  constructor
  · intro h
    apply BitVec.eq_of_getLsbD_eq
    intro i hi
    rw [← h]
    simp [hi, show 12 + i < 23 by omega]
  · intro h
    subst h
    apply BitVec.eq_of_getLsbD_eq
    intro i hi
    simp only [BitVec.getLsbD_or, BitVec.getLsbD_shiftLeft, BitVec.getLsbD_setWidth, BitVec.getLsbD_extractLsb']
    by_cases h : i < 12
    · simp [h, hi]
    · have : 12 + (i - 12) = i := by omega
      simp [h, hi, this, show i - 12 < 23 by omega, show i - 12 < 11 by omega]

/-- Bit i of a rotation is bit i + 1 of the word, cyclically (R16). -/
theorem rotr23_bit (x : BitVec 23) {i : Nat} (hi : i < 23) : (rotr23 x).getLsbD i = x.getLsbD ((i + 1) % 23) := by
  interval_cases i <;> simp [rotr23]

/-- A rotation of an XOR is the XOR of the rotations (R16). -/
theorem rotr23_xor (x y : BitVec 23) : rotr23 (x ^^^ y) = rotr23 x ^^^ rotr23 y := by
  apply BitVec.eq_of_getLsbD_eq
  intro i hi
  rw [rotr23_bit _ hi, BitVec.getLsbD_xor, BitVec.getLsbD_xor, rotr23_bit _ hi, rotr23_bit _ hi]

end Sys2Proof.Machine
end

