-- ==== Sys2Proof/Laws/Ops.lean ====
section
/-! SUPPORT. One lemma for each shared operation that says once what it can do: the completeness checks, acceptance,
the CMD write, running a command, the address map, the host reads and writes. -/

namespace Sys2Proof.Machine

theorem blockComplete_iff (s : State) : s.blockComplete = true ↔ blockLoaded s := by
  simp only [State.blockComplete, beq_iff_eq, blockLoaded]
  constructor
  · intro h j hj
    rw [h, BitVec.getLsbD_allOnes, decide_eq_true hj]
  · intro h
    apply BitVec.eq_of_getLsbD_eq
    intro i hi
    rw [h i hi, BitVec.getLsbD_allOnes, decide_eq_true hi]

theorem waveComplete_iff (s : State) : s.waveComplete = true ↔ waveLoaded s := by
  simp [State.waveComplete, waveLoaded]

/-- The completion of a command faults exactly when a RAM entry it reads is not valid (R58, R156). -/
theorem completionFault_none_iff (c : Command) (s : State) : completionFault c s = none ↔ ramReady c s := by
  have hb := blockComplete_iff s
  have hw := waveComplete_iff s
  cases c <;> simp [completionFault, ramReady, consumesBlock, needsBlock, needsWave, ← hb, ← hw]

/-- The operand check of R121. -/
theorem operandOutOfRange_false_iff (c : Command) :
    operandOutOfRange c = false ↔ ∀ k, c = .score k → k.toNat < 50 := by
  cases c <;> simp [operandOutOfRange, Config.numTones]

/-- What acceptance can do (R121): refuse the operand, refuse for an incomplete RAM, or accept. -/
theorem State.accept_cases (c : Command) (s : State) :
    (¬ commandReady c s ∧ (s.accept c = s.raise .operand ∨ s.accept c = s.raise .incomplete))
    ∨ (commandReady c s ∧ s.accept c = { s with
        cfgDebug := s.ctrlDebug, cfgInvert := s.ctrlInvert, cfgAlias := s.ctrlAlias, cfgArg := s.arg
        pending := c, status := statusAccepted s.status }) := by
  rw [commandReady, ← operandOutOfRange_false_iff, ← completionFault_none_iff, completionFault, State.accept]
  cases operandOutOfRange c <;> cases needsBlock c && !s.blockComplete <;> cases needsWave c && !s.waveComplete <;> simp

theorem State.accept_of_ready {c : Command} {s : State} (h : commandReady c s) :
    s.accept c = { s with
        cfgDebug := s.ctrlDebug, cfgInvert := s.ctrlInvert, cfgAlias := s.ctrlAlias, cfgArg := s.arg
        pending := c, status := statusAccepted s.status } := by
  rcases s.accept_cases c with ⟨hn, _⟩ | ⟨_, he⟩
  · exact absurd h hn
  · exact he

/-- In mode IDLE a command is accepted or refused. -/
theorem runCommand_idle {c : Command} {f : State → State} {s : State} (h : s.busy = false) :
    runCommand c f s = .next (s.accept c) := by
  simp [runCommand, h]

/-- In mode BUSY the pending command completes, if it has what it reads. -/
theorem runCommand_pending {c : Command} {f : State → State} {s : State} (h : s.busy = true) (hp : s.pending = c)
    (hr : ramReady c s) : runCommand c f s = .next ((f s).finish c) := by
  simp [runCommand, h, hp, (completionFault_none_iff c s).2 hr]

/-- What running a command can do: accept it, complete it, fault, or turn it away. -/
theorem runCommand_cases (c : Command) (f : State → State) (s : State) :
    (s.busy = false ∧ runCommand c f s = .next (s.accept c))
    ∨ (s.busy = true ∧ s.pending = c ∧ ramReady c s ∧ runCommand c f s = .next ((f s).finish c))
    ∨ (s.busy = true ∧ s.pending = c ∧ ∃ r, completionFault c s = some r ∧ runCommand c f s = .fault r)
    ∨ (s.busy = true ∧ s.pending ≠ c ∧ runCommand c f s = .next (s.raise .busy)) := by
  rw [← completionFault_none_iff]
  simp only [runCommand]
  split
  · split
    · cases hf : completionFault c s <;> simp_all
    · simp_all
  · simp_all

/-! The address map (R50). -/

theorem targetOf_reg {L off : Nat} (h : off < 0x40) : targetOf L off = (regOfIndex (off / 4)).map .reg := by
  simp [targetOf, h]

theorem targetOf_score {L off : Nat} (h : 0x40 ≤ off) (h' : off < 0x108) :
    targetOf L off = some (.score ⟨(off - 0x40) / 4, by omega⟩) := by
  simp [targetOf, Nat.not_lt.2 h, h']

theorem targetOf_wave {L off : Nat} (h : 0x1000 ≤ off) (h' : off < 0x1000 + 4 * L) (hL : L ≤ 500) :
    targetOf L off = some (.wave ((off - 0x1000) / 4)) := by
  rw [targetOf, if_neg (by omega), dif_neg (by omega), if_neg (by omega), if_pos (by omega), if_pos h']

theorem targetOf_sample {L off : Nat} (h : 0x4000 ≤ off) (h' : off < 0x4000 + 4 * 4000) :
    targetOf L off = some (.sample ((off - 0x4000) / 4)) := by
  rw [targetOf, if_neg (by omega), dif_neg (by omega), if_neg (by omega), if_neg (by omega), if_pos h']

theorem targetOf_none {L off : Nat} (h : 0x108 ≤ off) (hw : ¬ (0x1000 ≤ off ∧ off < 0x1000 + 4 * L))
    (hs : ¬ (0x4000 ≤ off ∧ off < 0x4000 + 4 * 4000)) : targetOf L off = none := by
  simp only [targetOf, Config.blockLen]
  rw [if_neg (by omega), dif_neg (by omega)]
  split
  · rfl
  · split
    · rw [if_neg (by omega)]
    · rw [if_neg (by omega)]

/-- The waveform length of a well-formed configuration (R9, R10, R50). -/
theorem waveLen_bounds {p : Config.Params} (h : p.wf = true) : 467 ≤ p.waveLen ∧ p.waveLen ≤ 500 := by
  simp only [Config.Params.wf, Config.Params.lengthOk, Bool.and_eq_true, decide_eq_true_eq] at h
  have h3 := h.1.1.1.1.1.1
  refine ⟨h3.2, ?_⟩
  simp only [Config.Params.waveLen, Config.blockLen, Config.decim] at h3 ⊢
  omega

/-- What a host write of a mapped word can do (R55, R162). -/
theorem State.writeTarget_cases (s : State) (v : Word) (t : Target) :
    s.writeTarget v t = s
    ∨ s.writeTarget v t = { s with ctrl := v &&& ctrlMask }
    ∨ s.writeTarget v t = s.clearStatus v
    ∨ s.writeTarget v t = s.issue v
    ∨ s.writeTarget v t = { s with arg := v }
    ∨ s.writeTarget v t = s.raise .busy ∧ s.busy = true
    ∨ s.busy = false ∧ (s.writeTarget v t = { s with peakLow := v } ∨ s.writeTarget v t = { s with peakHigh := v }
      ∨ (∃ j, t = .sample j ∧ s.writeTarget v t = s.setSample j (v.setWidth 12))
      ∨ ∃ k, t = .wave k ∧ s.writeTarget v t = s.setWave k v) := by
  cases t with
  | reg r => cases r <;> cases hb : s.busy <;> simp [State.writeTarget, hb]
  | score k => simp [State.writeTarget]
  | wave k => cases hb : s.busy <;> simp [State.writeTarget, hb]
  | sample j => cases hb : s.busy <;> simp [State.writeTarget, hb]

/-- What a host read of a mapped word can do: nothing but give a value (R54). -/
theorem State.readTarget_cases (s : State) (t : Target) :
    ∃ v n, s.readTarget t = { s with busData := v, draws := n } := by
  cases t with
  | reg r => exact ⟨_, s.draws, rfl⟩
  | score k => exact ⟨_, s.draws, rfl⟩
  | sample j => exact ⟨_, s.draws, rfl⟩
  | wave k =>
    simp only [State.readTarget]
    split
    · exact ⟨_, _, rfl⟩
    · exact ⟨_, s.draws, rfl⟩

/-- What a CMD write can do (R121). -/
theorem State.issue_cases (v : Word) (s : State) :
    (s.busy = true ∧ s.issue v = s.raise .busy)
    ∨ (s.busy = false ∧ (∃ err, decodeCommand v = .error err) ∧ s.issue v = s.raise .command)
    ∨ (s.busy = false ∧ ∃ c, decodeCommand v = .ok c ∧ s.issue v = s.accept c) := by
  simp only [State.issue]
  cases hb : s.busy
  · cases hd : decodeCommand v <;> simp
  · simp

end Sys2Proof.Machine
end

