-- ==== Sys2Proof/Laws/PerInstr.lean ====
section
/-! SUPPORT. The per-instruction family: the encoding of every instruction matches its row of the opcode table, the bits
the row fixes being what the row says (R65, R66, R68). -/

namespace Sys2Proof.Laws

/-- The bits that an instruction's row of the opcode table fixes (R68). -/
def EncodingInTable.mask : Instr → Encoded
  | .nop | .run | .classify | .dcs | .filter | .recover | .resolve | .golayEnc | .golayChk | .clrblk =>
    .cmd 0xFFFFFFFF#32
  | .score _ => .cmd 0xFFFF00FF#32
  | .read _ => .bus 0x2000FFFFFFFF#46
  | .write _ _ => .bus 0x200000000000#46

/-- What the row fixes them to (R68). -/
def EncodingInTable.pattern : Instr → Encoded
  | .nop => .cmd 0x00000000#32
  | .run => .cmd 0x00000001#32
  | .classify => .cmd 0x00000002#32
  | .dcs => .cmd 0x00000003#32
  | .score _ => .cmd 0x00000004#32
  | .filter => .cmd 0x00000005#32
  | .recover => .cmd 0x00000006#32
  | .resolve => .cmd 0x00000007#32
  | .golayEnc => .cmd 0x00000008#32
  | .golayChk => .cmd 0x00000009#32
  | .clrblk => .cmd 0x0000000A#32
  | .read _ => .bus 0x000000000000#46
  | .write _ _ => .bus 0x200000000000#46

/-- A word carries the fixed bits of a row: same format, and the masked word is the pattern. -/
def EncodingInTable.carries : Encoded → Encoded → Encoded → Prop
  | .cmd w, .cmd m, .cmd v => w &&& m = v
  | .bus r, .bus m, .bus v => r &&& m = v
  | .cmd _, .bus _, _ => False
  | .cmd _, .cmd _, .bus _ => False
  | .bus _, .cmd _, _ => False
  | .bus _, .bus _, .cmd _ => False

/-- The encoding of the instruction carries the fixed bits of its row. -/
def EncodingInTable.Statement (i : Instr) : Prop :=
  EncodingInTable.carries (encode i) (EncodingInTable.mask i) (EncodingInTable.pattern i)

theorem EncodingInTable.nop : EncodingInTable.Statement .nop := by
  show encodeCommand _ &&& _ = _
  decide

theorem EncodingInTable.run : EncodingInTable.Statement .run := by
  show encodeCommand _ &&& _ = _
  decide

theorem EncodingInTable.classify : EncodingInTable.Statement .classify := by
  show encodeCommand _ &&& _ = _
  decide

theorem EncodingInTable.dcs : EncodingInTable.Statement .dcs := by
  show encodeCommand _ &&& _ = _
  decide

theorem EncodingInTable.score (arg8 : BitVec 8) : EncodingInTable.Statement (.score arg8) := by
  show encodeCommand (.score arg8) &&& 0xFFFF00FF#32 = 0x00000004#32
  revert arg8
  decide

theorem EncodingInTable.filter : EncodingInTable.Statement .filter := by
  show encodeCommand _ &&& _ = _
  decide

theorem EncodingInTable.recover : EncodingInTable.Statement .recover := by
  show encodeCommand _ &&& _ = _
  decide

theorem EncodingInTable.resolve : EncodingInTable.Statement .resolve := by
  show encodeCommand _ &&& _ = _
  decide

theorem EncodingInTable.golayEnc : EncodingInTable.Statement .golayEnc := by
  show encodeCommand _ &&& _ = _
  decide

theorem EncodingInTable.golayChk : EncodingInTable.Statement .golayChk := by
  show encodeCommand _ &&& _ = _
  decide

theorem EncodingInTable.clrblk : EncodingInTable.Statement .clrblk := by
  show encodeCommand _ &&& _ = _
  decide

theorem EncodingInTable.read (waddr : BitVec 13) : EncodingInTable.Statement (.read waddr) := by
  show encodeRecord false waddr 0#32 &&& 0x2000FFFFFFFF#46 = 0#46
  apply BitVec.eq_of_getLsbD_eq
  intro i hi
  rw [BitVec.getLsbD_and, encodeRecord, BitVec.getLsbD_append, BitVec.getLsbD_append]
  interval_cases i <;> simp

theorem EncodingInTable.write (waddr : BitVec 13) (data : Word) : EncodingInTable.Statement (.write waddr data) := by
  show encodeRecord true waddr data &&& 0x200000000000#46 = 0x200000000000#46
  apply BitVec.eq_of_getLsbD_eq
  intro i hi
  rw [BitVec.getLsbD_and, encodeRecord, BitVec.getLsbD_append, BitVec.getLsbD_append]
  interval_cases i <;> simp

end Sys2Proof.Laws
end

