-- ==== Sys2Proof/Laws/State.lean ====
section
/-! SUPPORT. One lemma per field of State for each update of it, true by rfl, so that no later proof unfolds a record
update: what raising, clearing, finishing, the window writes and the commits leave and change. -/

namespace Sys2Proof.Machine

@[simp] theorem State.raise_ctrl (s : State) (e : EngineError) : (s.raise e).ctrl = s.ctrl := rfl
@[simp] theorem State.raise_status (s : State) (e : EngineError) : (s.raise e).status = statusRaised e s.status := rfl
@[simp] theorem State.raise_arg (s : State) (e : EngineError) : (s.raise e).arg = s.arg := rfl
@[simp] theorem State.raise_result (s : State) (e : EngineError) : (s.raise e).result = s.result := rfl
@[simp] theorem State.raise_toneResult (s : State) (e : EngineError) : (s.raise e).toneResult = s.toneResult := rfl
@[simp] theorem State.raise_toneMax (s : State) (e : EngineError) : (s.raise e).toneMax = s.toneMax := rfl
@[simp] theorem State.raise_toneAvg (s : State) (e : EngineError) : (s.raise e).toneAvg = s.toneAvg := rfl
@[simp] theorem State.raise_toneMaxIdx (s : State) (e : EngineError) : (s.raise e).toneMaxIdx = s.toneMaxIdx := rfl
@[simp] theorem State.raise_dcsResult (s : State) (e : EngineError) : (s.raise e).dcsResult = s.dcsResult := rfl
@[simp] theorem State.raise_dcsRaw (s : State) (e : EngineError) : (s.raise e).dcsRaw = s.dcsRaw := rfl
@[simp] theorem State.raise_peakLow (s : State) (e : EngineError) : (s.raise e).peakLow = s.peakLow := rfl
@[simp] theorem State.raise_peakHigh (s : State) (e : EngineError) : (s.raise e).peakHigh = s.peakHigh := rfl
@[simp] theorem State.raise_idleTimeout (s : State) (e : EngineError) : (s.raise e).idleTimeout = s.idleTimeout := rfl
@[simp] theorem State.raise_sweepPhase (s : State) (e : EngineError) : (s.raise e).sweepPhase = s.sweepPhase := rfl
@[simp] theorem State.raise_scores (s : State) (e : EngineError) : (s.raise e).scores = s.scores := rfl
@[simp] theorem State.raise_mem (s : State) (e : EngineError) : (s.raise e).mem = s.mem := rfl
@[simp] theorem State.raise_sampleValid (s : State) (e : EngineError) : (s.raise e).sampleValid = s.sampleValid := rfl
@[simp] theorem State.raise_waveValid (s : State) (e : EngineError) : (s.raise e).waveValid = s.waveValid := rfl
@[simp] theorem State.raise_pending (s : State) (e : EngineError) : (s.raise e).pending = s.pending := rfl
@[simp] theorem State.raise_cfgDebug (s : State) (e : EngineError) : (s.raise e).cfgDebug = s.cfgDebug := rfl
@[simp] theorem State.raise_cfgInvert (s : State) (e : EngineError) : (s.raise e).cfgInvert = s.cfgInvert := rfl
@[simp] theorem State.raise_cfgAlias (s : State) (e : EngineError) : (s.raise e).cfgAlias = s.cfgAlias := rfl
@[simp] theorem State.raise_cfgArg (s : State) (e : EngineError) : (s.raise e).cfgArg = s.cfgArg := rfl
@[simp] theorem State.raise_agenda (s : State) (e : EngineError) : (s.raise e).agenda = s.agenda := rfl
@[simp] theorem State.raise_busData (s : State) (e : EngineError) : (s.raise e).busData = s.busData := rfl
@[simp] theorem State.raise_draws (s : State) (e : EngineError) : (s.raise e).draws = s.draws := rfl

@[simp] theorem State.clearStatus_ctrl (s : State) (v : Word) : (s.clearStatus v).ctrl = s.ctrl := rfl
@[simp] theorem State.clearStatus_status (s : State) (v : Word) : (s.clearStatus v).status = statusCleared v s.status := rfl
@[simp] theorem State.clearStatus_arg (s : State) (v : Word) : (s.clearStatus v).arg = s.arg := rfl
@[simp] theorem State.clearStatus_result (s : State) (v : Word) : (s.clearStatus v).result = s.result := rfl
@[simp] theorem State.clearStatus_toneResult (s : State) (v : Word) : (s.clearStatus v).toneResult = s.toneResult := rfl
@[simp] theorem State.clearStatus_toneMax (s : State) (v : Word) : (s.clearStatus v).toneMax = s.toneMax := rfl
@[simp] theorem State.clearStatus_toneAvg (s : State) (v : Word) : (s.clearStatus v).toneAvg = s.toneAvg := rfl
@[simp] theorem State.clearStatus_toneMaxIdx (s : State) (v : Word) : (s.clearStatus v).toneMaxIdx = s.toneMaxIdx := rfl
@[simp] theorem State.clearStatus_dcsResult (s : State) (v : Word) : (s.clearStatus v).dcsResult = s.dcsResult := rfl
@[simp] theorem State.clearStatus_dcsRaw (s : State) (v : Word) : (s.clearStatus v).dcsRaw = s.dcsRaw := rfl
@[simp] theorem State.clearStatus_peakLow (s : State) (v : Word) : (s.clearStatus v).peakLow = s.peakLow := rfl
@[simp] theorem State.clearStatus_peakHigh (s : State) (v : Word) : (s.clearStatus v).peakHigh = s.peakHigh := rfl
@[simp] theorem State.clearStatus_idleTimeout (s : State) (v : Word) : (s.clearStatus v).idleTimeout = s.idleTimeout := rfl
@[simp] theorem State.clearStatus_sweepPhase (s : State) (v : Word) : (s.clearStatus v).sweepPhase = s.sweepPhase := rfl
@[simp] theorem State.clearStatus_scores (s : State) (v : Word) : (s.clearStatus v).scores = s.scores := rfl
@[simp] theorem State.clearStatus_mem (s : State) (v : Word) : (s.clearStatus v).mem = s.mem := rfl
@[simp] theorem State.clearStatus_sampleValid (s : State) (v : Word) : (s.clearStatus v).sampleValid = s.sampleValid := rfl
@[simp] theorem State.clearStatus_waveValid (s : State) (v : Word) : (s.clearStatus v).waveValid = s.waveValid := rfl
@[simp] theorem State.clearStatus_pending (s : State) (v : Word) : (s.clearStatus v).pending = s.pending := rfl
@[simp] theorem State.clearStatus_cfgDebug (s : State) (v : Word) : (s.clearStatus v).cfgDebug = s.cfgDebug := rfl
@[simp] theorem State.clearStatus_cfgInvert (s : State) (v : Word) : (s.clearStatus v).cfgInvert = s.cfgInvert := rfl
@[simp] theorem State.clearStatus_cfgAlias (s : State) (v : Word) : (s.clearStatus v).cfgAlias = s.cfgAlias := rfl
@[simp] theorem State.clearStatus_cfgArg (s : State) (v : Word) : (s.clearStatus v).cfgArg = s.cfgArg := rfl
@[simp] theorem State.clearStatus_agenda (s : State) (v : Word) : (s.clearStatus v).agenda = s.agenda := rfl
@[simp] theorem State.clearStatus_busData (s : State) (v : Word) : (s.clearStatus v).busData = s.busData := rfl
@[simp] theorem State.clearStatus_draws (s : State) (v : Word) : (s.clearStatus v).draws = s.draws := rfl

@[simp] theorem State.finish_ctrl (s : State) (c : Command) : (s.finish c).ctrl = s.ctrl := rfl
@[simp] theorem State.finish_status (s : State) (c : Command) : (s.finish c).status = statusCompleted c.opcode s.status := rfl
@[simp] theorem State.finish_arg (s : State) (c : Command) : (s.finish c).arg = s.arg := rfl
@[simp] theorem State.finish_result (s : State) (c : Command) : (s.finish c).result = s.result := rfl
@[simp] theorem State.finish_toneResult (s : State) (c : Command) : (s.finish c).toneResult = s.toneResult := rfl
@[simp] theorem State.finish_toneMax (s : State) (c : Command) : (s.finish c).toneMax = s.toneMax := rfl
@[simp] theorem State.finish_toneAvg (s : State) (c : Command) : (s.finish c).toneAvg = s.toneAvg := rfl
@[simp] theorem State.finish_toneMaxIdx (s : State) (c : Command) : (s.finish c).toneMaxIdx = s.toneMaxIdx := rfl
@[simp] theorem State.finish_dcsResult (s : State) (c : Command) : (s.finish c).dcsResult = s.dcsResult := rfl
@[simp] theorem State.finish_dcsRaw (s : State) (c : Command) : (s.finish c).dcsRaw = s.dcsRaw := rfl
@[simp] theorem State.finish_peakLow (s : State) (c : Command) : (s.finish c).peakLow = s.peakLow := rfl
@[simp] theorem State.finish_peakHigh (s : State) (c : Command) : (s.finish c).peakHigh = s.peakHigh := rfl
@[simp] theorem State.finish_idleTimeout (s : State) (c : Command) : (s.finish c).idleTimeout = s.idleTimeout := rfl
@[simp] theorem State.finish_sweepPhase (s : State) (c : Command) : (s.finish c).sweepPhase = s.sweepPhase := rfl
@[simp] theorem State.finish_scores (s : State) (c : Command) : (s.finish c).scores = s.scores := rfl
@[simp] theorem State.finish_mem (s : State) (c : Command) : (s.finish c).mem = s.mem := rfl
@[simp] theorem State.finish_sampleValid (s : State) (c : Command) : (s.finish c).sampleValid = s.sampleValid := rfl
@[simp] theorem State.finish_waveValid (s : State) (c : Command) : (s.finish c).waveValid = s.waveValid := rfl
@[simp] theorem State.finish_pending (s : State) (c : Command) : (s.finish c).pending = s.pending := rfl
@[simp] theorem State.finish_cfgDebug (s : State) (c : Command) : (s.finish c).cfgDebug = s.cfgDebug := rfl
@[simp] theorem State.finish_cfgInvert (s : State) (c : Command) : (s.finish c).cfgInvert = s.cfgInvert := rfl
@[simp] theorem State.finish_cfgAlias (s : State) (c : Command) : (s.finish c).cfgAlias = s.cfgAlias := rfl
@[simp] theorem State.finish_cfgArg (s : State) (c : Command) : (s.finish c).cfgArg = s.cfgArg := rfl
@[simp] theorem State.finish_agenda (s : State) (c : Command) : (s.finish c).agenda = s.agenda := rfl
@[simp] theorem State.finish_busData (s : State) (c : Command) : (s.finish c).busData = s.busData := rfl
@[simp] theorem State.finish_draws (s : State) (c : Command) : (s.finish c).draws = s.draws := rfl

@[simp] theorem State.setSample_ctrl (s : State) (j : Nat) (r : BitVec 12) : (s.setSample j r).ctrl = s.ctrl := rfl
@[simp] theorem State.setSample_status (s : State) (j : Nat) (r : BitVec 12) : (s.setSample j r).status = s.status := rfl
@[simp] theorem State.setSample_arg (s : State) (j : Nat) (r : BitVec 12) : (s.setSample j r).arg = s.arg := rfl
@[simp] theorem State.setSample_result (s : State) (j : Nat) (r : BitVec 12) : (s.setSample j r).result = s.result := rfl
@[simp] theorem State.setSample_toneResult (s : State) (j : Nat) (r : BitVec 12) : (s.setSample j r).toneResult = s.toneResult := rfl
@[simp] theorem State.setSample_toneMax (s : State) (j : Nat) (r : BitVec 12) : (s.setSample j r).toneMax = s.toneMax := rfl
@[simp] theorem State.setSample_toneAvg (s : State) (j : Nat) (r : BitVec 12) : (s.setSample j r).toneAvg = s.toneAvg := rfl
@[simp] theorem State.setSample_toneMaxIdx (s : State) (j : Nat) (r : BitVec 12) : (s.setSample j r).toneMaxIdx = s.toneMaxIdx := rfl
@[simp] theorem State.setSample_dcsResult (s : State) (j : Nat) (r : BitVec 12) : (s.setSample j r).dcsResult = s.dcsResult := rfl
@[simp] theorem State.setSample_dcsRaw (s : State) (j : Nat) (r : BitVec 12) : (s.setSample j r).dcsRaw = s.dcsRaw := rfl
@[simp] theorem State.setSample_peakLow (s : State) (j : Nat) (r : BitVec 12) : (s.setSample j r).peakLow = s.peakLow := rfl
@[simp] theorem State.setSample_peakHigh (s : State) (j : Nat) (r : BitVec 12) : (s.setSample j r).peakHigh = s.peakHigh := rfl
@[simp] theorem State.setSample_idleTimeout (s : State) (j : Nat) (r : BitVec 12) : (s.setSample j r).idleTimeout = s.idleTimeout := rfl
@[simp] theorem State.setSample_sweepPhase (s : State) (j : Nat) (r : BitVec 12) : (s.setSample j r).sweepPhase = s.sweepPhase := rfl
@[simp] theorem State.setSample_scores (s : State) (j : Nat) (r : BitVec 12) : (s.setSample j r).scores = s.scores := rfl
@[simp] theorem State.setSample_mem (s : State) (j : Nat) (r : BitVec 12) : (s.setSample j r).mem = s.mem.writeWord (sampleOffset j) (r.setWidth 32) := rfl
@[simp] theorem State.setSample_sampleValid (s : State) (j : Nat) (r : BitVec 12) : (s.setSample j r).sampleValid = s.sampleValid ||| BitVec.twoPow 4000 j := rfl
@[simp] theorem State.setSample_waveValid (s : State) (j : Nat) (r : BitVec 12) : (s.setSample j r).waveValid = s.waveValid := rfl
@[simp] theorem State.setSample_pending (s : State) (j : Nat) (r : BitVec 12) : (s.setSample j r).pending = s.pending := rfl
@[simp] theorem State.setSample_cfgDebug (s : State) (j : Nat) (r : BitVec 12) : (s.setSample j r).cfgDebug = s.cfgDebug := rfl
@[simp] theorem State.setSample_cfgInvert (s : State) (j : Nat) (r : BitVec 12) : (s.setSample j r).cfgInvert = s.cfgInvert := rfl
@[simp] theorem State.setSample_cfgAlias (s : State) (j : Nat) (r : BitVec 12) : (s.setSample j r).cfgAlias = s.cfgAlias := rfl
@[simp] theorem State.setSample_cfgArg (s : State) (j : Nat) (r : BitVec 12) : (s.setSample j r).cfgArg = s.cfgArg := rfl
@[simp] theorem State.setSample_agenda (s : State) (j : Nat) (r : BitVec 12) : (s.setSample j r).agenda = s.agenda := rfl
@[simp] theorem State.setSample_busData (s : State) (j : Nat) (r : BitVec 12) : (s.setSample j r).busData = s.busData := rfl
@[simp] theorem State.setSample_draws (s : State) (j : Nat) (r : BitVec 12) : (s.setSample j r).draws = s.draws := rfl

@[simp] theorem State.setWave_ctrl (s : State) (k : Nat) (v : Word) : (s.setWave k v).ctrl = s.ctrl := rfl
@[simp] theorem State.setWave_status (s : State) (k : Nat) (v : Word) : (s.setWave k v).status = s.status := rfl
@[simp] theorem State.setWave_arg (s : State) (k : Nat) (v : Word) : (s.setWave k v).arg = s.arg := rfl
@[simp] theorem State.setWave_result (s : State) (k : Nat) (v : Word) : (s.setWave k v).result = s.result := rfl
@[simp] theorem State.setWave_toneResult (s : State) (k : Nat) (v : Word) : (s.setWave k v).toneResult = s.toneResult := rfl
@[simp] theorem State.setWave_toneMax (s : State) (k : Nat) (v : Word) : (s.setWave k v).toneMax = s.toneMax := rfl
@[simp] theorem State.setWave_toneAvg (s : State) (k : Nat) (v : Word) : (s.setWave k v).toneAvg = s.toneAvg := rfl
@[simp] theorem State.setWave_toneMaxIdx (s : State) (k : Nat) (v : Word) : (s.setWave k v).toneMaxIdx = s.toneMaxIdx := rfl
@[simp] theorem State.setWave_dcsResult (s : State) (k : Nat) (v : Word) : (s.setWave k v).dcsResult = s.dcsResult := rfl
@[simp] theorem State.setWave_dcsRaw (s : State) (k : Nat) (v : Word) : (s.setWave k v).dcsRaw = s.dcsRaw := rfl
@[simp] theorem State.setWave_peakLow (s : State) (k : Nat) (v : Word) : (s.setWave k v).peakLow = s.peakLow := rfl
@[simp] theorem State.setWave_peakHigh (s : State) (k : Nat) (v : Word) : (s.setWave k v).peakHigh = s.peakHigh := rfl
@[simp] theorem State.setWave_idleTimeout (s : State) (k : Nat) (v : Word) : (s.setWave k v).idleTimeout = s.idleTimeout := rfl
@[simp] theorem State.setWave_sweepPhase (s : State) (k : Nat) (v : Word) : (s.setWave k v).sweepPhase = s.sweepPhase := rfl
@[simp] theorem State.setWave_scores (s : State) (k : Nat) (v : Word) : (s.setWave k v).scores = s.scores := rfl
@[simp] theorem State.setWave_mem (s : State) (k : Nat) (v : Word) : (s.setWave k v).mem = s.mem.writeWord (waveOffset k) v := rfl
@[simp] theorem State.setWave_sampleValid (s : State) (k : Nat) (v : Word) : (s.setWave k v).sampleValid = s.sampleValid := rfl
@[simp] theorem State.setWave_waveValid (s : State) (k : Nat) (v : Word) : (s.setWave k v).waveValid = s.waveValid ||| BitVec.twoPow 500 k := rfl
@[simp] theorem State.setWave_pending (s : State) (k : Nat) (v : Word) : (s.setWave k v).pending = s.pending := rfl
@[simp] theorem State.setWave_cfgDebug (s : State) (k : Nat) (v : Word) : (s.setWave k v).cfgDebug = s.cfgDebug := rfl
@[simp] theorem State.setWave_cfgInvert (s : State) (k : Nat) (v : Word) : (s.setWave k v).cfgInvert = s.cfgInvert := rfl
@[simp] theorem State.setWave_cfgAlias (s : State) (k : Nat) (v : Word) : (s.setWave k v).cfgAlias = s.cfgAlias := rfl
@[simp] theorem State.setWave_cfgArg (s : State) (k : Nat) (v : Word) : (s.setWave k v).cfgArg = s.cfgArg := rfl
@[simp] theorem State.setWave_agenda (s : State) (k : Nat) (v : Word) : (s.setWave k v).agenda = s.agenda := rfl
@[simp] theorem State.setWave_busData (s : State) (k : Nat) (v : Word) : (s.setWave k v).busData = s.busData := rfl
@[simp] theorem State.setWave_draws (s : State) (k : Nat) (v : Word) : (s.setWave k v).draws = s.draws := rfl

@[simp] theorem State.refusedRead_ctrl (s : State) : s.refusedRead.ctrl = s.ctrl := rfl
@[simp] theorem State.refusedRead_status (s : State) : s.refusedRead.status = statusRaised .address s.status := rfl
@[simp] theorem State.refusedRead_arg (s : State) : s.refusedRead.arg = s.arg := rfl
@[simp] theorem State.refusedRead_result (s : State) : s.refusedRead.result = s.result := rfl
@[simp] theorem State.refusedRead_toneResult (s : State) : s.refusedRead.toneResult = s.toneResult := rfl
@[simp] theorem State.refusedRead_toneMax (s : State) : s.refusedRead.toneMax = s.toneMax := rfl
@[simp] theorem State.refusedRead_toneAvg (s : State) : s.refusedRead.toneAvg = s.toneAvg := rfl
@[simp] theorem State.refusedRead_toneMaxIdx (s : State) : s.refusedRead.toneMaxIdx = s.toneMaxIdx := rfl
@[simp] theorem State.refusedRead_dcsResult (s : State) : s.refusedRead.dcsResult = s.dcsResult := rfl
@[simp] theorem State.refusedRead_dcsRaw (s : State) : s.refusedRead.dcsRaw = s.dcsRaw := rfl
@[simp] theorem State.refusedRead_peakLow (s : State) : s.refusedRead.peakLow = s.peakLow := rfl
@[simp] theorem State.refusedRead_peakHigh (s : State) : s.refusedRead.peakHigh = s.peakHigh := rfl
@[simp] theorem State.refusedRead_idleTimeout (s : State) : s.refusedRead.idleTimeout = s.idleTimeout := rfl
@[simp] theorem State.refusedRead_sweepPhase (s : State) : s.refusedRead.sweepPhase = s.sweepPhase := rfl
@[simp] theorem State.refusedRead_scores (s : State) : s.refusedRead.scores = s.scores := rfl
@[simp] theorem State.refusedRead_mem (s : State) : s.refusedRead.mem = s.mem := rfl
@[simp] theorem State.refusedRead_sampleValid (s : State) : s.refusedRead.sampleValid = s.sampleValid := rfl
@[simp] theorem State.refusedRead_waveValid (s : State) : s.refusedRead.waveValid = s.waveValid := rfl
@[simp] theorem State.refusedRead_pending (s : State) : s.refusedRead.pending = s.pending := rfl
@[simp] theorem State.refusedRead_cfgDebug (s : State) : s.refusedRead.cfgDebug = s.cfgDebug := rfl
@[simp] theorem State.refusedRead_cfgInvert (s : State) : s.refusedRead.cfgInvert = s.cfgInvert := rfl
@[simp] theorem State.refusedRead_cfgAlias (s : State) : s.refusedRead.cfgAlias = s.cfgAlias := rfl
@[simp] theorem State.refusedRead_cfgArg (s : State) : s.refusedRead.cfgArg = s.cfgArg := rfl
@[simp] theorem State.refusedRead_agenda (s : State) : s.refusedRead.agenda = s.agenda := rfl
@[simp] theorem State.refusedRead_busData (s : State) : s.refusedRead.busData = 0#32 := rfl
@[simp] theorem State.refusedRead_draws (s : State) : s.refusedRead.draws = s.draws := rfl

@[simp] theorem State.withWord_ctrl (s : State) (e : Encoded) : (s.withWord e).ctrl = s.ctrl := rfl
@[simp] theorem State.withWord_status (s : State) (e : Encoded) : (s.withWord e).status = s.status := rfl
@[simp] theorem State.withWord_arg (s : State) (e : Encoded) : (s.withWord e).arg = s.arg := rfl
@[simp] theorem State.withWord_result (s : State) (e : Encoded) : (s.withWord e).result = s.result := rfl
@[simp] theorem State.withWord_toneResult (s : State) (e : Encoded) : (s.withWord e).toneResult = s.toneResult := rfl
@[simp] theorem State.withWord_toneMax (s : State) (e : Encoded) : (s.withWord e).toneMax = s.toneMax := rfl
@[simp] theorem State.withWord_toneAvg (s : State) (e : Encoded) : (s.withWord e).toneAvg = s.toneAvg := rfl
@[simp] theorem State.withWord_toneMaxIdx (s : State) (e : Encoded) : (s.withWord e).toneMaxIdx = s.toneMaxIdx := rfl
@[simp] theorem State.withWord_dcsResult (s : State) (e : Encoded) : (s.withWord e).dcsResult = s.dcsResult := rfl
@[simp] theorem State.withWord_dcsRaw (s : State) (e : Encoded) : (s.withWord e).dcsRaw = s.dcsRaw := rfl
@[simp] theorem State.withWord_peakLow (s : State) (e : Encoded) : (s.withWord e).peakLow = s.peakLow := rfl
@[simp] theorem State.withWord_peakHigh (s : State) (e : Encoded) : (s.withWord e).peakHigh = s.peakHigh := rfl
@[simp] theorem State.withWord_idleTimeout (s : State) (e : Encoded) : (s.withWord e).idleTimeout = s.idleTimeout := rfl
@[simp] theorem State.withWord_sweepPhase (s : State) (e : Encoded) : (s.withWord e).sweepPhase = s.sweepPhase := rfl
@[simp] theorem State.withWord_scores (s : State) (e : Encoded) : (s.withWord e).scores = s.scores := rfl
@[simp] theorem State.withWord_mem (s : State) (e : Encoded) : (s.withWord e).mem = s.mem := rfl
@[simp] theorem State.withWord_sampleValid (s : State) (e : Encoded) : (s.withWord e).sampleValid = s.sampleValid := rfl
@[simp] theorem State.withWord_waveValid (s : State) (e : Encoded) : (s.withWord e).waveValid = s.waveValid := rfl
@[simp] theorem State.withWord_pending (s : State) (e : Encoded) : (s.withWord e).pending = s.pending := rfl
@[simp] theorem State.withWord_cfgDebug (s : State) (e : Encoded) : (s.withWord e).cfgDebug = s.cfgDebug := rfl
@[simp] theorem State.withWord_cfgInvert (s : State) (e : Encoded) : (s.withWord e).cfgInvert = s.cfgInvert := rfl
@[simp] theorem State.withWord_cfgAlias (s : State) (e : Encoded) : (s.withWord e).cfgAlias = s.cfgAlias := rfl
@[simp] theorem State.withWord_cfgArg (s : State) (e : Encoded) : (s.withWord e).cfgArg = s.cfgArg := rfl
@[simp] theorem State.withWord_agenda (s : State) (e : Encoded) : (s.withWord e).agenda = .word e :: s.agenda := rfl
@[simp] theorem State.withWord_busData (s : State) (e : Encoded) : (s.withWord e).busData = s.busData := rfl
@[simp] theorem State.withWord_draws (s : State) (e : Encoded) : (s.withWord e).draws = s.draws := rfl

@[simp] theorem commitNop_ctrl (s : State) : (commitNop s).ctrl = s.ctrl := rfl
@[simp] theorem commitNop_status (s : State) : (commitNop s).status = s.status := rfl
@[simp] theorem commitNop_arg (s : State) : (commitNop s).arg = s.arg := rfl
@[simp] theorem commitNop_result (s : State) : (commitNop s).result = s.result := rfl
@[simp] theorem commitNop_toneResult (s : State) : (commitNop s).toneResult = s.toneResult := rfl
@[simp] theorem commitNop_toneMax (s : State) : (commitNop s).toneMax = s.toneMax := rfl
@[simp] theorem commitNop_toneAvg (s : State) : (commitNop s).toneAvg = s.toneAvg := rfl
@[simp] theorem commitNop_toneMaxIdx (s : State) : (commitNop s).toneMaxIdx = s.toneMaxIdx := rfl
@[simp] theorem commitNop_dcsResult (s : State) : (commitNop s).dcsResult = s.dcsResult := rfl
@[simp] theorem commitNop_dcsRaw (s : State) : (commitNop s).dcsRaw = s.dcsRaw := rfl
@[simp] theorem commitNop_peakLow (s : State) : (commitNop s).peakLow = s.peakLow := rfl
@[simp] theorem commitNop_peakHigh (s : State) : (commitNop s).peakHigh = s.peakHigh := rfl
@[simp] theorem commitNop_idleTimeout (s : State) : (commitNop s).idleTimeout = s.idleTimeout := rfl
@[simp] theorem commitNop_sweepPhase (s : State) : (commitNop s).sweepPhase = s.sweepPhase := rfl
@[simp] theorem commitNop_scores (s : State) : (commitNop s).scores = s.scores := rfl
@[simp] theorem commitNop_mem (s : State) : (commitNop s).mem = s.mem := rfl
@[simp] theorem commitNop_sampleValid (s : State) : (commitNop s).sampleValid = s.sampleValid := rfl
@[simp] theorem commitNop_waveValid (s : State) : (commitNop s).waveValid = s.waveValid := rfl
@[simp] theorem commitNop_pending (s : State) : (commitNop s).pending = s.pending := rfl
@[simp] theorem commitNop_cfgDebug (s : State) : (commitNop s).cfgDebug = s.cfgDebug := rfl
@[simp] theorem commitNop_cfgInvert (s : State) : (commitNop s).cfgInvert = s.cfgInvert := rfl
@[simp] theorem commitNop_cfgAlias (s : State) : (commitNop s).cfgAlias = s.cfgAlias := rfl
@[simp] theorem commitNop_cfgArg (s : State) : (commitNop s).cfgArg = s.cfgArg := rfl
@[simp] theorem commitNop_agenda (s : State) : (commitNop s).agenda = s.agenda := rfl
@[simp] theorem commitNop_busData (s : State) : (commitNop s).busData = s.busData := rfl
@[simp] theorem commitNop_draws (s : State) : (commitNop s).draws = s.draws := rfl

@[simp] theorem commitGolayEnc_ctrl (s : State) : (commitGolayEnc s).ctrl = s.ctrl := by simp only [commitGolayEnc]
@[simp] theorem commitGolayEnc_status (s : State) : (commitGolayEnc s).status = s.status := by simp only [commitGolayEnc]
@[simp] theorem commitGolayEnc_arg (s : State) : (commitGolayEnc s).arg = s.arg := by simp only [commitGolayEnc]
@[simp] theorem commitGolayEnc_toneResult (s : State) : (commitGolayEnc s).toneResult = s.toneResult := by simp only [commitGolayEnc]
@[simp] theorem commitGolayEnc_toneMax (s : State) : (commitGolayEnc s).toneMax = s.toneMax := by simp only [commitGolayEnc]
@[simp] theorem commitGolayEnc_toneAvg (s : State) : (commitGolayEnc s).toneAvg = s.toneAvg := by simp only [commitGolayEnc]
@[simp] theorem commitGolayEnc_toneMaxIdx (s : State) : (commitGolayEnc s).toneMaxIdx = s.toneMaxIdx := by simp only [commitGolayEnc]
@[simp] theorem commitGolayEnc_dcsResult (s : State) : (commitGolayEnc s).dcsResult = s.dcsResult := by simp only [commitGolayEnc]
@[simp] theorem commitGolayEnc_dcsRaw (s : State) : (commitGolayEnc s).dcsRaw = s.dcsRaw := by simp only [commitGolayEnc]
@[simp] theorem commitGolayEnc_peakLow (s : State) : (commitGolayEnc s).peakLow = s.peakLow := by simp only [commitGolayEnc]
@[simp] theorem commitGolayEnc_peakHigh (s : State) : (commitGolayEnc s).peakHigh = s.peakHigh := by simp only [commitGolayEnc]
@[simp] theorem commitGolayEnc_idleTimeout (s : State) : (commitGolayEnc s).idleTimeout = s.idleTimeout := by simp only [commitGolayEnc]
@[simp] theorem commitGolayEnc_sweepPhase (s : State) : (commitGolayEnc s).sweepPhase = s.sweepPhase := by simp only [commitGolayEnc]
@[simp] theorem commitGolayEnc_scores (s : State) : (commitGolayEnc s).scores = s.scores := by simp only [commitGolayEnc]
@[simp] theorem commitGolayEnc_mem (s : State) : (commitGolayEnc s).mem = s.mem := by simp only [commitGolayEnc]
@[simp] theorem commitGolayEnc_sampleValid (s : State) : (commitGolayEnc s).sampleValid = s.sampleValid := by simp only [commitGolayEnc]
@[simp] theorem commitGolayEnc_waveValid (s : State) : (commitGolayEnc s).waveValid = s.waveValid := by simp only [commitGolayEnc]
@[simp] theorem commitGolayEnc_pending (s : State) : (commitGolayEnc s).pending = s.pending := by simp only [commitGolayEnc]
@[simp] theorem commitGolayEnc_cfgDebug (s : State) : (commitGolayEnc s).cfgDebug = s.cfgDebug := by simp only [commitGolayEnc]
@[simp] theorem commitGolayEnc_cfgInvert (s : State) : (commitGolayEnc s).cfgInvert = s.cfgInvert := by simp only [commitGolayEnc]
@[simp] theorem commitGolayEnc_cfgAlias (s : State) : (commitGolayEnc s).cfgAlias = s.cfgAlias := by simp only [commitGolayEnc]
@[simp] theorem commitGolayEnc_cfgArg (s : State) : (commitGolayEnc s).cfgArg = s.cfgArg := by simp only [commitGolayEnc]
@[simp] theorem commitGolayEnc_agenda (s : State) : (commitGolayEnc s).agenda = s.agenda := by simp only [commitGolayEnc]
@[simp] theorem commitGolayEnc_busData (s : State) : (commitGolayEnc s).busData = s.busData := by simp only [commitGolayEnc]
@[simp] theorem commitGolayEnc_draws (s : State) : (commitGolayEnc s).draws = s.draws := by simp only [commitGolayEnc]

@[simp] theorem commitGolayChk_ctrl (s : State) : (commitGolayChk s).ctrl = s.ctrl := by simp only [commitGolayChk]
@[simp] theorem commitGolayChk_status (s : State) : (commitGolayChk s).status = s.status := by simp only [commitGolayChk]
@[simp] theorem commitGolayChk_arg (s : State) : (commitGolayChk s).arg = s.arg := by simp only [commitGolayChk]
@[simp] theorem commitGolayChk_toneResult (s : State) : (commitGolayChk s).toneResult = s.toneResult := by simp only [commitGolayChk]
@[simp] theorem commitGolayChk_toneMax (s : State) : (commitGolayChk s).toneMax = s.toneMax := by simp only [commitGolayChk]
@[simp] theorem commitGolayChk_toneAvg (s : State) : (commitGolayChk s).toneAvg = s.toneAvg := by simp only [commitGolayChk]
@[simp] theorem commitGolayChk_toneMaxIdx (s : State) : (commitGolayChk s).toneMaxIdx = s.toneMaxIdx := by simp only [commitGolayChk]
@[simp] theorem commitGolayChk_dcsResult (s : State) : (commitGolayChk s).dcsResult = s.dcsResult := by simp only [commitGolayChk]
@[simp] theorem commitGolayChk_dcsRaw (s : State) : (commitGolayChk s).dcsRaw = s.dcsRaw := by simp only [commitGolayChk]
@[simp] theorem commitGolayChk_peakLow (s : State) : (commitGolayChk s).peakLow = s.peakLow := by simp only [commitGolayChk]
@[simp] theorem commitGolayChk_peakHigh (s : State) : (commitGolayChk s).peakHigh = s.peakHigh := by simp only [commitGolayChk]
@[simp] theorem commitGolayChk_idleTimeout (s : State) : (commitGolayChk s).idleTimeout = s.idleTimeout := by simp only [commitGolayChk]
@[simp] theorem commitGolayChk_sweepPhase (s : State) : (commitGolayChk s).sweepPhase = s.sweepPhase := by simp only [commitGolayChk]
@[simp] theorem commitGolayChk_scores (s : State) : (commitGolayChk s).scores = s.scores := by simp only [commitGolayChk]
@[simp] theorem commitGolayChk_mem (s : State) : (commitGolayChk s).mem = s.mem := by simp only [commitGolayChk]
@[simp] theorem commitGolayChk_sampleValid (s : State) : (commitGolayChk s).sampleValid = s.sampleValid := by simp only [commitGolayChk]
@[simp] theorem commitGolayChk_waveValid (s : State) : (commitGolayChk s).waveValid = s.waveValid := by simp only [commitGolayChk]
@[simp] theorem commitGolayChk_pending (s : State) : (commitGolayChk s).pending = s.pending := by simp only [commitGolayChk]
@[simp] theorem commitGolayChk_cfgDebug (s : State) : (commitGolayChk s).cfgDebug = s.cfgDebug := by simp only [commitGolayChk]
@[simp] theorem commitGolayChk_cfgInvert (s : State) : (commitGolayChk s).cfgInvert = s.cfgInvert := by simp only [commitGolayChk]
@[simp] theorem commitGolayChk_cfgAlias (s : State) : (commitGolayChk s).cfgAlias = s.cfgAlias := by simp only [commitGolayChk]
@[simp] theorem commitGolayChk_cfgArg (s : State) : (commitGolayChk s).cfgArg = s.cfgArg := by simp only [commitGolayChk]
@[simp] theorem commitGolayChk_agenda (s : State) : (commitGolayChk s).agenda = s.agenda := by simp only [commitGolayChk]
@[simp] theorem commitGolayChk_busData (s : State) : (commitGolayChk s).busData = s.busData := by simp only [commitGolayChk]
@[simp] theorem commitGolayChk_draws (s : State) : (commitGolayChk s).draws = s.draws := by simp only [commitGolayChk]

@[simp] theorem commitResolve_ctrl (s : State) : (commitResolve s).ctrl = s.ctrl := by simp only [commitResolve]
@[simp] theorem commitResolve_status (s : State) : (commitResolve s).status = s.status := by simp only [commitResolve]
@[simp] theorem commitResolve_arg (s : State) : (commitResolve s).arg = s.arg := by simp only [commitResolve]
@[simp] theorem commitResolve_toneResult (s : State) : (commitResolve s).toneResult = s.toneResult := by simp only [commitResolve]
@[simp] theorem commitResolve_toneMax (s : State) : (commitResolve s).toneMax = s.toneMax := by simp only [commitResolve]
@[simp] theorem commitResolve_toneAvg (s : State) : (commitResolve s).toneAvg = s.toneAvg := by simp only [commitResolve]
@[simp] theorem commitResolve_toneMaxIdx (s : State) : (commitResolve s).toneMaxIdx = s.toneMaxIdx := by simp only [commitResolve]
@[simp] theorem commitResolve_dcsResult (s : State) : (commitResolve s).dcsResult = s.dcsResult := by simp only [commitResolve]
@[simp] theorem commitResolve_dcsRaw (s : State) : (commitResolve s).dcsRaw = s.dcsRaw := by simp only [commitResolve]
@[simp] theorem commitResolve_peakLow (s : State) : (commitResolve s).peakLow = s.peakLow := by simp only [commitResolve]
@[simp] theorem commitResolve_peakHigh (s : State) : (commitResolve s).peakHigh = s.peakHigh := by simp only [commitResolve]
@[simp] theorem commitResolve_idleTimeout (s : State) : (commitResolve s).idleTimeout = s.idleTimeout := by simp only [commitResolve]
@[simp] theorem commitResolve_sweepPhase (s : State) : (commitResolve s).sweepPhase = s.sweepPhase := by simp only [commitResolve]
@[simp] theorem commitResolve_scores (s : State) : (commitResolve s).scores = s.scores := by simp only [commitResolve]
@[simp] theorem commitResolve_mem (s : State) : (commitResolve s).mem = s.mem := by simp only [commitResolve]
@[simp] theorem commitResolve_sampleValid (s : State) : (commitResolve s).sampleValid = s.sampleValid := by simp only [commitResolve]
@[simp] theorem commitResolve_waveValid (s : State) : (commitResolve s).waveValid = s.waveValid := by simp only [commitResolve]
@[simp] theorem commitResolve_pending (s : State) : (commitResolve s).pending = s.pending := by simp only [commitResolve]
@[simp] theorem commitResolve_cfgDebug (s : State) : (commitResolve s).cfgDebug = s.cfgDebug := by simp only [commitResolve]
@[simp] theorem commitResolve_cfgInvert (s : State) : (commitResolve s).cfgInvert = s.cfgInvert := by simp only [commitResolve]
@[simp] theorem commitResolve_cfgAlias (s : State) : (commitResolve s).cfgAlias = s.cfgAlias := by simp only [commitResolve]
@[simp] theorem commitResolve_cfgArg (s : State) : (commitResolve s).cfgArg = s.cfgArg := by simp only [commitResolve]
@[simp] theorem commitResolve_agenda (s : State) : (commitResolve s).agenda = s.agenda := by simp only [commitResolve]
@[simp] theorem commitResolve_busData (s : State) : (commitResolve s).busData = s.busData := by simp only [commitResolve]
@[simp] theorem commitResolve_draws (s : State) : (commitResolve s).draws = s.draws := by simp only [commitResolve]

@[simp] theorem commitScore_ctrl (k : BitVec 8) (s : State) : (commitScore k s).ctrl = s.ctrl := by simp only [commitScore]
@[simp] theorem commitScore_status (k : BitVec 8) (s : State) : (commitScore k s).status = s.status := by simp only [commitScore]
@[simp] theorem commitScore_arg (k : BitVec 8) (s : State) : (commitScore k s).arg = s.arg := by simp only [commitScore]
@[simp] theorem commitScore_toneResult (k : BitVec 8) (s : State) : (commitScore k s).toneResult = s.toneResult := by simp only [commitScore]
@[simp] theorem commitScore_toneMax (k : BitVec 8) (s : State) : (commitScore k s).toneMax = s.toneMax := by simp only [commitScore]
@[simp] theorem commitScore_toneAvg (k : BitVec 8) (s : State) : (commitScore k s).toneAvg = s.toneAvg := by simp only [commitScore]
@[simp] theorem commitScore_toneMaxIdx (k : BitVec 8) (s : State) : (commitScore k s).toneMaxIdx = s.toneMaxIdx := by simp only [commitScore]
@[simp] theorem commitScore_dcsResult (k : BitVec 8) (s : State) : (commitScore k s).dcsResult = s.dcsResult := by simp only [commitScore]
@[simp] theorem commitScore_dcsRaw (k : BitVec 8) (s : State) : (commitScore k s).dcsRaw = s.dcsRaw := by simp only [commitScore]
@[simp] theorem commitScore_peakLow (k : BitVec 8) (s : State) : (commitScore k s).peakLow = s.peakLow := by simp only [commitScore]
@[simp] theorem commitScore_peakHigh (k : BitVec 8) (s : State) : (commitScore k s).peakHigh = s.peakHigh := by simp only [commitScore]
@[simp] theorem commitScore_idleTimeout (k : BitVec 8) (s : State) : (commitScore k s).idleTimeout = s.idleTimeout := by simp only [commitScore]
@[simp] theorem commitScore_sweepPhase (k : BitVec 8) (s : State) : (commitScore k s).sweepPhase = s.sweepPhase := by simp only [commitScore]
@[simp] theorem commitScore_scores (k : BitVec 8) (s : State) : (commitScore k s).scores = s.scores := by simp only [commitScore]
@[simp] theorem commitScore_mem (k : BitVec 8) (s : State) : (commitScore k s).mem = s.mem := by simp only [commitScore]
@[simp] theorem commitScore_sampleValid (k : BitVec 8) (s : State) : (commitScore k s).sampleValid = s.sampleValid := by simp only [commitScore]
@[simp] theorem commitScore_waveValid (k : BitVec 8) (s : State) : (commitScore k s).waveValid = s.waveValid := by simp only [commitScore]
@[simp] theorem commitScore_pending (k : BitVec 8) (s : State) : (commitScore k s).pending = s.pending := by simp only [commitScore]
@[simp] theorem commitScore_cfgDebug (k : BitVec 8) (s : State) : (commitScore k s).cfgDebug = s.cfgDebug := by simp only [commitScore]
@[simp] theorem commitScore_cfgInvert (k : BitVec 8) (s : State) : (commitScore k s).cfgInvert = s.cfgInvert := by simp only [commitScore]
@[simp] theorem commitScore_cfgAlias (k : BitVec 8) (s : State) : (commitScore k s).cfgAlias = s.cfgAlias := by simp only [commitScore]
@[simp] theorem commitScore_cfgArg (k : BitVec 8) (s : State) : (commitScore k s).cfgArg = s.cfgArg := by simp only [commitScore]
@[simp] theorem commitScore_agenda (k : BitVec 8) (s : State) : (commitScore k s).agenda = s.agenda := by simp only [commitScore]
@[simp] theorem commitScore_busData (k : BitVec 8) (s : State) : (commitScore k s).busData = s.busData := by simp only [commitScore]
@[simp] theorem commitScore_draws (k : BitVec 8) (s : State) : (commitScore k s).draws = s.draws := by simp only [commitScore]

@[simp] theorem commitTone_ctrl (p : Config.Params) (s : State) : (commitTone p s).ctrl = s.ctrl := by simp only [commitTone]
@[simp] theorem commitTone_status (p : Config.Params) (s : State) : (commitTone p s).status = s.status := by simp only [commitTone]
@[simp] theorem commitTone_arg (p : Config.Params) (s : State) : (commitTone p s).arg = s.arg := by simp only [commitTone]
@[simp] theorem commitTone_result (p : Config.Params) (s : State) : (commitTone p s).result = s.result := by simp only [commitTone]
@[simp] theorem commitTone_dcsResult (p : Config.Params) (s : State) : (commitTone p s).dcsResult = s.dcsResult := by simp only [commitTone]
@[simp] theorem commitTone_dcsRaw (p : Config.Params) (s : State) : (commitTone p s).dcsRaw = s.dcsRaw := by simp only [commitTone]
@[simp] theorem commitTone_peakLow (p : Config.Params) (s : State) : (commitTone p s).peakLow = s.peakLow := by simp only [commitTone]
@[simp] theorem commitTone_peakHigh (p : Config.Params) (s : State) : (commitTone p s).peakHigh = s.peakHigh := by simp only [commitTone]
@[simp] theorem commitTone_idleTimeout (p : Config.Params) (s : State) : (commitTone p s).idleTimeout = s.idleTimeout := by simp only [commitTone]
@[simp] theorem commitTone_sweepPhase (p : Config.Params) (s : State) : (commitTone p s).sweepPhase = s.sweepPhase := by simp only [commitTone]
@[simp] theorem commitTone_mem (p : Config.Params) (s : State) : (commitTone p s).mem = s.mem := by simp only [commitTone]
@[simp] theorem commitTone_sampleValid (p : Config.Params) (s : State) : (commitTone p s).sampleValid = s.sampleValid := by simp only [commitTone]
@[simp] theorem commitTone_waveValid (p : Config.Params) (s : State) : (commitTone p s).waveValid = s.waveValid := by simp only [commitTone]
@[simp] theorem commitTone_pending (p : Config.Params) (s : State) : (commitTone p s).pending = s.pending := by simp only [commitTone]
@[simp] theorem commitTone_cfgDebug (p : Config.Params) (s : State) : (commitTone p s).cfgDebug = s.cfgDebug := by simp only [commitTone]
@[simp] theorem commitTone_cfgInvert (p : Config.Params) (s : State) : (commitTone p s).cfgInvert = s.cfgInvert := by simp only [commitTone]
@[simp] theorem commitTone_cfgAlias (p : Config.Params) (s : State) : (commitTone p s).cfgAlias = s.cfgAlias := by simp only [commitTone]
@[simp] theorem commitTone_cfgArg (p : Config.Params) (s : State) : (commitTone p s).cfgArg = s.cfgArg := by simp only [commitTone]
@[simp] theorem commitTone_agenda (p : Config.Params) (s : State) : (commitTone p s).agenda = s.agenda := by simp only [commitTone]
@[simp] theorem commitTone_busData (p : Config.Params) (s : State) : (commitTone p s).busData = s.busData := by simp only [commitTone]
@[simp] theorem commitTone_draws (p : Config.Params) (s : State) : (commitTone p s).draws = s.draws := by simp only [commitTone]

@[simp] theorem commitRecover_ctrl (s : State) : (commitRecover s).ctrl = s.ctrl := by simp only [commitRecover]
@[simp] theorem commitRecover_status (s : State) : (commitRecover s).status = s.status := by simp only [commitRecover]
@[simp] theorem commitRecover_arg (s : State) : (commitRecover s).arg = s.arg := by simp only [commitRecover]
@[simp] theorem commitRecover_result (s : State) : (commitRecover s).result = s.result := by simp only [commitRecover]
@[simp] theorem commitRecover_toneResult (s : State) : (commitRecover s).toneResult = s.toneResult := by simp only [commitRecover]
@[simp] theorem commitRecover_toneMax (s : State) : (commitRecover s).toneMax = s.toneMax := by simp only [commitRecover]
@[simp] theorem commitRecover_toneAvg (s : State) : (commitRecover s).toneAvg = s.toneAvg := by simp only [commitRecover]
@[simp] theorem commitRecover_toneMaxIdx (s : State) : (commitRecover s).toneMaxIdx = s.toneMaxIdx := by simp only [commitRecover]
@[simp] theorem commitRecover_dcsResult (s : State) : (commitRecover s).dcsResult = s.dcsResult := by simp only [commitRecover]
@[simp] theorem commitRecover_peakLow (s : State) : (commitRecover s).peakLow = s.peakLow := by simp only [commitRecover]
@[simp] theorem commitRecover_peakHigh (s : State) : (commitRecover s).peakHigh = s.peakHigh := by simp only [commitRecover]
@[simp] theorem commitRecover_idleTimeout (s : State) : (commitRecover s).idleTimeout = s.idleTimeout := by simp only [commitRecover]
@[simp] theorem commitRecover_sweepPhase (s : State) : (commitRecover s).sweepPhase = s.sweepPhase := by simp only [commitRecover]
@[simp] theorem commitRecover_scores (s : State) : (commitRecover s).scores = s.scores := by simp only [commitRecover]
@[simp] theorem commitRecover_mem (s : State) : (commitRecover s).mem = s.mem := by simp only [commitRecover]
@[simp] theorem commitRecover_sampleValid (s : State) : (commitRecover s).sampleValid = s.sampleValid := by simp only [commitRecover]
@[simp] theorem commitRecover_waveValid (s : State) : (commitRecover s).waveValid = s.waveValid := by simp only [commitRecover]
@[simp] theorem commitRecover_pending (s : State) : (commitRecover s).pending = s.pending := by simp only [commitRecover]
@[simp] theorem commitRecover_cfgDebug (s : State) : (commitRecover s).cfgDebug = s.cfgDebug := by simp only [commitRecover]
@[simp] theorem commitRecover_cfgInvert (s : State) : (commitRecover s).cfgInvert = s.cfgInvert := by simp only [commitRecover]
@[simp] theorem commitRecover_cfgAlias (s : State) : (commitRecover s).cfgAlias = s.cfgAlias := by simp only [commitRecover]
@[simp] theorem commitRecover_cfgArg (s : State) : (commitRecover s).cfgArg = s.cfgArg := by simp only [commitRecover]
@[simp] theorem commitRecover_agenda (s : State) : (commitRecover s).agenda = s.agenda := by simp only [commitRecover]
@[simp] theorem commitRecover_busData (s : State) : (commitRecover s).busData = s.busData := by simp only [commitRecover]
@[simp] theorem commitRecover_draws (s : State) : (commitRecover s).draws = s.draws := by simp only [commitRecover]

@[simp] theorem commitClrblk_ctrl (s : State) : (commitClrblk s).ctrl = s.ctrl := rfl
@[simp] theorem commitClrblk_status (s : State) : (commitClrblk s).status = s.status := rfl
@[simp] theorem commitClrblk_arg (s : State) : (commitClrblk s).arg = s.arg := rfl
@[simp] theorem commitClrblk_result (s : State) : (commitClrblk s).result = s.result := rfl
@[simp] theorem commitClrblk_toneResult (s : State) : (commitClrblk s).toneResult = s.toneResult := rfl
@[simp] theorem commitClrblk_toneMax (s : State) : (commitClrblk s).toneMax = s.toneMax := rfl
@[simp] theorem commitClrblk_toneAvg (s : State) : (commitClrblk s).toneAvg = s.toneAvg := rfl
@[simp] theorem commitClrblk_toneMaxIdx (s : State) : (commitClrblk s).toneMaxIdx = s.toneMaxIdx := rfl
@[simp] theorem commitClrblk_dcsResult (s : State) : (commitClrblk s).dcsResult = s.dcsResult := rfl
@[simp] theorem commitClrblk_dcsRaw (s : State) : (commitClrblk s).dcsRaw = s.dcsRaw := rfl
@[simp] theorem commitClrblk_peakLow (s : State) : (commitClrblk s).peakLow = s.peakLow := rfl
@[simp] theorem commitClrblk_peakHigh (s : State) : (commitClrblk s).peakHigh = s.peakHigh := rfl
@[simp] theorem commitClrblk_idleTimeout (s : State) : (commitClrblk s).idleTimeout = s.idleTimeout := rfl
@[simp] theorem commitClrblk_sweepPhase (s : State) : (commitClrblk s).sweepPhase = s.sweepPhase := rfl
@[simp] theorem commitClrblk_scores (s : State) : (commitClrblk s).scores = s.scores := rfl
@[simp] theorem commitClrblk_mem (s : State) : (commitClrblk s).mem = s.mem := rfl
@[simp] theorem commitClrblk_sampleValid (s : State) : (commitClrblk s).sampleValid = 0#4000 := rfl
@[simp] theorem commitClrblk_waveValid (s : State) : (commitClrblk s).waveValid = 0#500 := rfl
@[simp] theorem commitClrblk_pending (s : State) : (commitClrblk s).pending = s.pending := rfl
@[simp] theorem commitClrblk_cfgDebug (s : State) : (commitClrblk s).cfgDebug = s.cfgDebug := rfl
@[simp] theorem commitClrblk_cfgInvert (s : State) : (commitClrblk s).cfgInvert = s.cfgInvert := rfl
@[simp] theorem commitClrblk_cfgAlias (s : State) : (commitClrblk s).cfgAlias = s.cfgAlias := rfl
@[simp] theorem commitClrblk_cfgArg (s : State) : (commitClrblk s).cfgArg = s.cfgArg := rfl
@[simp] theorem commitClrblk_agenda (s : State) : (commitClrblk s).agenda = s.agenda := rfl
@[simp] theorem commitClrblk_busData (s : State) : (commitClrblk s).busData = s.busData := rfl
@[simp] theorem commitClrblk_draws (s : State) : (commitClrblk s).draws = s.draws := rfl

end Sys2Proof.Machine
end

