-- ==== Sys2Proof/Laws/Step.lean ====
section
/-! SUPPORT. What one step can do, once: the commit each command makes, what a transaction leaves, and the inversion of a
step that gives a next state. -/

namespace Sys2Proof.Machine

/-- The commit each command makes at its completion. -/
def commitOf : Command → State → State
  | .nop => commitNop
  | .run => commitRun
  | .classify => commitClassify
  | .dcs => commitDcs
  | .score k => commitScore k
  | .filter => commitFilter
  | .recover => commitRecover
  | .resolve => commitResolve
  | .golayEnc => commitGolayEnc
  | .golayChk => commitGolayChk
  | .clrblk => commitClrblk

/-- Every command runs through the one shared operation, with its own commit. -/
theorem exec_toInstr (c : Command) (s : State) : exec c.toInstr s = runCommand c (commitOf c) s := by
  cases c <;> rfl

/-- The completion of the pending command, when it has what it reads. -/
theorem exec_pending {s : State} (hb : s.busy = true) (hr : ramReady s.pending s) :
    exec s.pending.toInstr s = .next ((commitOf s.pending s).finish s.pending) := by
  rw [exec_toInstr]
  exact runCommand_pending hb rfl hr

/-- A completion that gives a next state is the commit and the end of R122. -/
theorem exec_pending_next {s t : State} (hb : s.busy = true) (h : exec s.pending.toInstr s = .next t) :
    ramReady s.pending s ∧ t = (commitOf s.pending s).finish s.pending := by
  rw [exec_toInstr] at h
  rcases runCommand_cases s.pending (commitOf s.pending) s with ⟨hf, _⟩ | ⟨_, _, hr, he⟩ | ⟨_, _, r, _, he⟩ | ⟨_, hp, _⟩
  · rw [hb] at hf
    cases hf
  · rw [he] at h
    injection h with h
    exact ⟨hr, h.symm⟩
  · rw [he] at h
    cases h
  · exact absurd rfl hp

/-- No commit touches a control register, the pending command, the latched configuration or the model's own fields. -/
theorem commitOf_frame (c : Command) (s : State) :
    commitOf c s = { commitOf c s with
      ctrl := s.ctrl, status := s.status, arg := s.arg, pending := s.pending, cfgDebug := s.cfgDebug
      cfgInvert := s.cfgInvert, cfgAlias := s.cfgAlias, cfgArg := s.cfgArg, agenda := s.agenda
      busData := s.busData, draws := s.draws } := by
  cases c with
  | run => simp only [commitOf, commitRun, commitChain, commitFir_eq]
  | dcs => simp only [commitOf, commitDcs, commitChain, commitFir_eq]
  | filter => simp only [commitOf, commitFilter, commitFir_eq]
  | nop => rfl
  | classify => rfl
  | score k => rfl
  | recover => rfl
  | resolve => rfl
  | golayEnc => rfl
  | golayChk => rfl
  | clrblk => rfl

/-- The offset of a word address names what it does by its range alone. -/
theorem busTarget_cases (a : BitVec 13) :
    busTarget a = none ∨ (∃ r, busTarget a = some (.reg r)) ∨ (∃ k, busTarget a = some (.score k))
      ∨ (∃ k, k < Config.hw.params.waveLen ∧ busTarget a = some (.wave k))
      ∨ ∃ j, j < 4000 ∧ busTarget a = some (.sample j) := by
  simp only [busTarget, targetOf]
  split
  · cases regOfIndex (byteOffset a / 4) <;> simp
  · split
    · simp
    · split
      · simp
      · split
        · split
          · exact .inr (.inr (.inr (.inl ⟨_, by omega, rfl⟩)))
          · simp
        · split
          · rename_i h
            simp only [Config.blockLen] at h
            exact .inr (.inr (.inr (.inr ⟨_, by omega, rfl⟩)))
          · simp

/-- The word offset of a SAMPLE entry names it (R50). -/
theorem busTarget_sample {j : Nat} (hj : j < 4000) :
    busTarget (BitVec.ofNat 13 (sampleOffset j / 4)) = some (.sample j) := by
  have hb : byteOffset (BitVec.ofNat 13 (sampleOffset j / 4)) = 0x4000 + 4 * j := by
    simp only [byteOffset, sampleOffset, BitVec.toNat_ofNat]
    omega
  simp only [busTarget, targetOf, hb, Config.blockLen]
  rw [if_neg (by omega), dif_neg (by omega), if_neg (by omega), if_neg (by omega), if_pos (by omega)]
  congr 2
  omega

/-- The word offset of a WAVE entry below L names it (R50). -/
theorem busTarget_wave {k : Nat} (hk : k < Config.hw.params.waveLen) :
    busTarget (BitVec.ofNat 13 (waveOffset k / 4)) = some (.wave k) := by
  have hL := (waveLen_bounds Config.hw.ok).2
  have hb : byteOffset (BitVec.ofNat 13 (waveOffset k / 4)) = 0x1000 + 4 * k := by
    simp only [byteOffset, waveOffset, BitVec.toNat_ofNat]
    omega
  simp only [busTarget, targetOf, hb]
  rw [if_neg (by omega), dif_neg (by omega), if_neg (by omega), if_pos (by omega), if_pos (by omega)]
  congr 2
  omega

/-- What a host transaction can do: be refused for its address, read, or write. It always gives a next state. -/
theorem exec_transaction {i : Instr} (hi : isTransaction i) (s : State) :
    exec i s = .next s.refusedRead ∨ (∃ tg, exec i s = .next (s.readTarget tg))
      ∨ exec i s = .next (s.raise .address)
      ∨ ∃ a v tg, busTarget a = some tg ∧ exec i s = .next (s.writeTarget v tg) := by
  rcases hi with ⟨a, rfl⟩ | ⟨a, v, rfl⟩
  · show execRead a s = _ ∨ (∃ tg, execRead a s = _) ∨ _
    simp only [execRead]
    cases busTarget a <;> simp
  · show _ ∨ _ ∨ execWrite a v s = _ ∨ ∃ a' v' tg, _ ∧ execWrite a v s = _
    cases h : busTarget a with
    | none => simp [execWrite, h]
    | some tg => exact .inr (.inr (.inr ⟨a, v, tg, h, by simp [execWrite, h]⟩))

/-- A record that decodes spells a transaction. -/
theorem decodeRecord_transaction {r : Record} {i : Instr} (h : decode (.bus r) = .ok i) : isTransaction i := by
  simp only [decode, decodeRecord] at h
  split at h
  · injection h with h
    exact .inr ⟨_, _, h.symm⟩
  · split at h
    · injection h with h
      exact .inl ⟨_, h.symm⟩
    · cases h

/-- A well-formed record spells a transaction (R66). -/
theorem decodeRecord_of_wf {r : Record} (h : (Encoded.bus r).wf = true) :
    ∃ i, decode (.bus r) = .ok i ∧ isTransaction i := by
  have h' : busWe r = true ∨ busWdata r = 0#32 := by
    simpa [Encoded.wf, Encoded.readDataZero, busWe, busWdata] using h
  have hd : ∃ i, decode (.bus r) = .ok i := by
    simp only [decode, decodeRecord]
    by_cases hw : busWe r = true
    · exact ⟨_, if_pos hw⟩
    · exact ⟨_, by rw [if_neg hw, if_pos (h'.resolve_left hw)]⟩
  obtain ⟨i, hd⟩ := hd
  exact ⟨i, hd, decodeRecord_transaction hd⟩

theorem accessInstr_transaction (we : Bool) (off : BitVec 15) (v : Word) : isTransaction (accessInstr we off v) := by
  cases we
  · exact .inl ⟨_, rfl⟩
  · exact .inr ⟨_, _, rfl⟩

/-- A CMD word that the host presents is the write of that word to CMD (R71, R121). -/
theorem wordMove_cmd (w : Word) (s : State) :
    (∃ t, wordMove (.cmd w) s = .done t ∧ t = s.issue w)
    ∨ ∃ c : Command, wordMove (.cmd w) s = .run c.toInstr s ∧ exec c.toInstr s = .next (s.issue w) := by
  simp only [wordMove, State.issue, decode]
  cases hb : s.busy with
  | true => simp
  | false =>
    cases hd : decodeCommand w with
    | error e => simp [Except.map]
    | ok c =>
      refine .inr ⟨c, by simp [Except.map], ?_⟩
      rw [exec_toInstr, runCommand_idle hb]
      simp

/-- Everything a step that gives a next state can do. -/
theorem step_cases {s t : State} (h : step s = .next t) :
    (∃ rest, s.agenda = .reset :: rest ∧ t = State.resetPulse { s with agenda := rest })
    ∨ (∃ rest, (s.agenda = [] ∧ rest = [] ∨ s.agenda = .complete :: rest) ∧
        (s.busy = false ∧ t = { s with agenda := rest }
        ∨ s.busy = true ∧ exec s.pending.toInstr { s with agenda := rest } = .next t))
    ∨ (∃ w rest, s.agenda = .word (.cmd w) :: rest ∧ t = State.issue w { s with agenda := rest })
    ∨ (∃ i rest, ((∃ r, s.agenda = .word (.bus r) :: rest ∧ decode (.bus r) = .ok i)
          ∨ ∃ we off size v, s.agenda = .access we off size v :: rest ∧ admitted off size = true
              ∧ i = accessInstr we off v)
        ∧ isTransaction i ∧ exec i { s with agenda := rest } = .next t)
    ∨ ∃ we off size v rest, s.agenda = .access we off size v :: rest ∧ admitted off size = false
        ∧ t = State.refusedAccess we { s with agenda := rest } := by
  simp only [step, fetch] at h
  split at h
  · rename_i i u hf
    split at hf
    · rename_i ha
      simp only [engineMove] at hf
      split at hf
      · injection hf with hi hu
        subst hi hu
        refine .inr (.inl ⟨[], .inl ⟨ha, rfl⟩, .inr ⟨by assumption, ?_⟩⟩)
        rw [show ({ s with agenda := [] } : State) = s by rw [← ha]]
        exact h
      · cases hf
    · rename_i e rest ha
      cases e with
      | cmd w =>
        rcases wordMove_cmd w { s with agenda := rest } with ⟨u', he, _⟩ | ⟨c, he, hx⟩
        · rw [he] at hf
          cases hf
        · rw [he] at hf
          injection hf with hi hu
          subst hi hu
          rw [hx] at h
          injection h with h
          exact .inr (.inr (.inl ⟨w, rest, ha, h.symm⟩))
      | bus r =>
        simp only [wordMove] at hf
        split at hf
        · cases hf
        · rename_i i' hd
          injection hf with hi hu
          subst hi hu
          exact .inr (.inr (.inr (.inl ⟨_, rest, .inl ⟨r, ha, hd⟩, decodeRecord_transaction hd, h⟩)))
    · rename_i we off size v rest ha
      simp only [accessMove] at hf
      split at hf
      · rename_i had
        injection hf with hi hu
        subst hi hu
        exact .inr (.inr (.inr (.inl ⟨_, rest, .inr ⟨we, off, size, v, ha, had, rfl⟩,
          accessInstr_transaction we off v, h⟩)))
      · cases hf
    · rename_i rest ha
      simp only [engineMove] at hf
      split at hf
      · injection hf with hi hu
        subst hi hu
        exact .inr (.inl ⟨rest, .inr ha, .inr ⟨by assumption, h⟩⟩)
      · cases hf
    · cases hf
  · rename_i u hf
    injection h with h
    subst h
    split at hf
    · rename_i ha
      simp only [engineMove] at hf
      split at hf
      · cases hf
      · injection hf with hu
        refine .inr (.inl ⟨[], .inl ⟨ha, rfl⟩, .inl ⟨by simp_all, ?_⟩⟩)
        rw [← hu, ← ha]
    · rename_i e rest ha
      cases e with
      | cmd w =>
        rcases wordMove_cmd w { s with agenda := rest } with ⟨u', he, hu⟩ | ⟨c, he, _⟩
        · rw [he] at hf
          injection hf with hf
          exact .inr (.inr (.inl ⟨w, rest, ha, by rw [← hf, hu]⟩))
        · rw [he] at hf
          cases hf
      | bus r =>
        simp only [wordMove] at hf
        split at hf <;> cases hf
    · rename_i we off size v rest ha
      simp only [accessMove] at hf
      split at hf
      · cases hf
      · rename_i had
        injection hf with hf
        exact .inr (.inr (.inr (.inr ⟨we, off, size, v, rest, ha, by simpa using had, hf.symm⟩)))
    · rename_i rest ha
      simp only [engineMove] at hf
      split at hf
      · cases hf
      · rename_i hb
        injection hf with hu
        exact .inr (.inl ⟨rest, .inr ha, .inl ⟨by simpa [State.busy] using hb, hu.symm⟩⟩)
    · rename_i rest ha
      injection hf with hf
      exact .inl ⟨rest, ha, hf.symm⟩
  · cases h

end Sys2Proof.Machine
end

