-- ==== Sys2Proof/Laws/Tone.lean ====
section
/-! SUPPORT. The accumulators of the tone scorer as sums (R75), so that no proof unfolds the fold over the block. -/

namespace Sys2Proof.Machine

/-- The fold of the scorer adds up the shifted products (R75). -/
theorem toneStep_foldl (p : Config.Params) (blk : Nat → Int) (sf : Nat) (l : List Nat) (a : ToneSums) :
    l.foldl (toneStep p blk sf) a =
      { i := a.i + (l.map fun j => floorShift (p.sinAt (angle j sf) * blk j) 6).sum
        q := a.q + (l.map fun j => floorShift (p.cosAt (angle j sf) * blk j) 6).sum } := by
  induction l generalizing a with
  | nil => simp
  | cons x r ih => simp only [List.foldl_cons, ih, List.map_cons, List.sum_cons, toneStep, add_assoc]

/-- I is the sum of the shifted products with SIN (R75). -/
theorem toneSums_i (p : Config.Params) (blk : Nat → Int) (sf : Nat) :
    (toneSums p blk sf).i =
      ((List.range Config.blockLen).map fun j => floorShift (p.sinAt (angle j sf) * blk j) 6).sum := by
  unfold toneSums
  rw [toneStep_foldl]
  exact zero_add _

/-- Q is the sum of the shifted products with COS (R75). -/
theorem toneSums_q (p : Config.Params) (blk : Nat → Int) (sf : Nat) :
    (toneSums p blk sf).q =
      ((List.range Config.blockLen).map fun j => floorShift (p.cosAt (angle j sf) * blk j) 6).sum := by
  unfold toneSums
  rw [toneStep_foldl]
  exact zero_add _

end Sys2Proof.Machine
end

