-- ==== Sys2Proof/Tests/Slice0.lean ====
section
/-! SUPPORT. The package's own tests: ill-formed terms that each check refuses, words written out from the spec's
encodings, the spec's vectors (95_test_vectors.md), single steps, and a witness for the hypotheses of every statement
that has some. -/

namespace Sys2Proof.Tests

open Sys2Proof.Machine

/-! ## Helpers -/

/-- The machine while BUSY with a command, nothing loaded. -/
def busyWith (c : Command) : State := { State.reset with status := 0x1#32, pending := c }

/-- Every SAMPLE entry valid (each raw is 0). -/
def loaded : State := { State.reset with sampleValid := BitVec.allOnes 4000 }

/-- BUSY with a command, every SAMPLE entry valid. -/
def loadedWith (c : Command) : State := { busyWith c with sampleValid := BitVec.allOnes 4000 }

/-- BUSY with a command, every WAVE entry valid. -/
def wavedWith (c : Command) : State := { busyWith c with waveValid := BitVec.allOnes 500 }

/-- One field of the state an outcome gives. -/
def after {α : Type} (f : State → α) : Host.Outcome State Fault Refusal → Option α
  | .next s => some (f s)
  | .fault _ => none
  | .refused _ => none

/-- The fault of an outcome. -/
def faultOf : Host.Outcome State Fault Refusal → Option Fault
  | .next _ => none
  | .fault f => some f
  | .refused _ => none

/-- The test configuration CR of 95_test_vectors.md: the candidate Golay rows, F1, all-zero tables. -/
def cr : Config.Params :=
  { Config.wellFormedExample with
    golayRow := [0x475, 0x49F, 0x54B, 0x6E3, 0x1B3, 0x366, 0x6CC, 0x1ED, 0x3DA, 0x7B4, 0x31D, 0x63A] }

/-- The test configurations F2 and F3. -/
def f2 : Config.Params := { cr with t := 2, taps := [1, 2] }
def f3 : Config.Params := { cr with t := 3, taps := [3, -1, 5] }

theorem loaded_ready (s : State) (h : s.sampleValid = BitVec.allOnes 4000) : blockLoaded s := by
  intro j hj
  rw [h, BitVec.getLsbD_allOnes, decide_eq_true hj]

theorem waved_ready (s : State) (h : s.waveValid = BitVec.allOnes 500) : waveLoaded s := by
  intro k hk
  have := (waveLen_bounds Config.hw.ok).2
  rw [h, BitVec.getLsbD_allOnes, decide_eq_true (by omega)]

theorem recover_ready (s : State) (h : s.waveValid = BitVec.allOnes 500) : commandReady .recover s :=
  ⟨by simp, by simp [consumesBlock], fun _ => waved_ready s h⟩

theorem not_loaded (s : State) (h : s.sampleValid = 0#4000) : ¬ blockLoaded s := by
  intro hb
  have := hb 0 (by decide)
  rw [h] at this
  simp at this

theorem not_waved (s : State) (h : s.waveValid = 0#500) : ¬ waveLoaded s := by
  intro hw
  have := (waveLen_bounds Config.hw.ok).1
  have := hw 0 (by omega)
  rw [h] at this
  simp at this

/-! ## Well-formedness: a term for each check, which the check refuses -/

theorem test_wf_rsv1 : (Encoded.cmd 0x00010000#32).wf = false := by decide
theorem test_wf_rsv0 : (Encoded.cmd 0x00000010#32).wf = false := by decide
theorem test_wf_opcode : (Encoded.cmd 0x0000000B#32).wf = false := by decide
theorem test_wf_arg8 : (Encoded.cmd 0x00000101#32).wf = false := by decide
theorem test_wf_read_data : (Encoded.bus 0x000200000001#46).wf = false := by decide
theorem test_wf_accepts : (Encoded.cmd 0x00003104#32).wf = true ∧ (Encoded.bus 0x200300000001#46).wf = true := by decide

theorem test_config_length_low : ({ cr with t := 0, taps := [] } : Config.Params).lengthOk = false := by decide
theorem test_config_length_high : ({ cr with t := 136 } : Config.Params).lengthOk = false := by decide
theorem test_config_length_edge : ({ cr with t := 135 } : Config.Params).lengthOk = true := by decide
theorem test_config_taps_count : ({ cr with taps := [1, 2] } : Config.Params).tapsOk = false := by decide
theorem test_config_taps_bound : ({ cr with taps := [838861] } : Config.Params).tapsOk = false := by decide
theorem test_config_taps_edge : ({ cr with taps := [838860] } : Config.Params).tapsOk = true := by decide
theorem test_config_trig : ({ cr with cos := List.replicate 1024 2048 } : Config.Params).trigOk = false := by
  decide +kernel
theorem test_config_sf : ({ cr with sf := List.replicate 50 4294967296 } : Config.Params).sfOk = false := by decide +kernel
theorem test_config_golay : ({ cr with golayRow := List.replicate 12 2048 } : Config.Params).golayOk = false := by
  decide +kernel
theorem test_config_alias : ({ cr with aliasLa := List.replicate 511 0 } : Config.Params).aliasOk = false := by
  decide +kernel
theorem test_config_lanes : ({ cr with toneLanes := 51 } : Config.Params).lanesOk = false := by decide
theorem test_config_wf : cr.wf = true ∧ f2.wf = true ∧ f3.wf = true := by decide +kernel

/-! ## Decoding: a word for every constructor, written out from the encodings (R65, R66, R68) -/

theorem test_decode_nop : decodeTableWord 32 0x00000000 = some .nop := by decide
theorem test_decode_run : decodeTableWord 32 0x00000001 = some .run := by decide
theorem test_decode_classify : decodeTableWord 32 0x00000002 = some .classify := by decide
theorem test_decode_dcs : decodeTableWord 32 0x00000003 = some .dcs := by decide
theorem test_decode_score : decodeTableWord 32 0x00003104 = some (.score 0x31#8) := by decide
theorem test_decode_filter : decodeTableWord 32 0x00000005 = some .filter := by decide
theorem test_decode_recover : decodeTableWord 32 0x00000006 = some .recover := by decide
theorem test_decode_resolve : decodeTableWord 32 0x00000007 = some .resolve := by decide
theorem test_decode_golay_enc : decodeTableWord 32 0x00000008 = some .golayEnc := by decide
theorem test_decode_golay_chk : decodeTableWord 32 0x00000009 = some .golayChk := by decide
theorem test_decode_clrblk : decodeTableWord 32 0x0000000A = some .clrblk := by decide
theorem test_decode_read : decodeTableWord 48 0x100500000000 = some (.read 0x1005#13) := by decide
theorem test_decode_write : decodeTableWord 48 0x240EFFFFFFEC = some (.write 0x40E#13 0xFFFFFFEC#32) := by decide
theorem test_decode_reserved_order :
    decode (.cmd 0x0001010B#32) = .error .reservedField ∧ decode (.cmd 0x0000010B#32) = .error .reservedOpcode
      ∧ decode (.cmd 0x00000101#32) = .error .argNotZero ∧ decode (.bus 0x000200000001#46) = .error .readDataNotZero := by
  refine ⟨rfl, rfl, rfl, rfl⟩

/-! ## The notation and the arithmetic (95_test_vectors.md 2.1 to 2.7) -/

theorem test_centre : ([0, 3, 4, 2047, 2048, 2051, 2052, 4095].map fun n => centre (BitVec.ofNat 12 n))
    = [-512, -512, -511, -1, 0, 0, 1, 511] := by decide
theorem test_floor_shift : floorShift (-1) 6 = -1 ∧ floorShift (-65) 6 = -2 := by decide
theorem test_threshold : threshold (-80) = -25 ∧ threshold (-3) = 0 ∧ threshold (-2147483648) = -671088640 := by decide
theorem test_rotr23 : rotr23 1#23 = 0x400000#23 ∧ rotr23 0x400000#23 = 0x200000#23 ∧ rotr23 0x7FFFFF#23 = 0x7FFFFF#23 := by
  decide
theorem test_angle : angle 1 1023 = 0 ∧ angle 1 1024 = 1 ∧ angle 3 1000 = 1 ∧ angle 2 2047 = 2
    ∧ angle 3999 1048576 = 512 ∧ angle 3999 4294967295 = 1022 := by decide
/-- One sample of TT's scorer rows: Q pairs with COS and floors, I with SIN. -/
theorem test_tone_step : toneStep { cr with cos := List.replicate 1024 2047 } (fun _ => -512) 5 { i := 7, q := 1 } 3
    = { i := 7, q := -16375 } := by decide +kernel
theorem test_score_of_sums : scoreOfSums { i := 0, q := -65504000 } = 1000000
    ∧ scoreOfSums { i := -4000, q := -4000 } = 2 := by decide
/-- C2, C3, C4, C7 and C8 of the classifier vectors. -/
theorem test_classify_c2 : scanDecision (scanScores fun k => if k = 7 then 1000 else 10) = some 7
    ∧ scanAverage (scanScores fun k => if k = 7 then 1000 else 10) = 9 := by decide +kernel
theorem test_classify_c3 : scanDecision (scanScores fun k => if k = 0 then 1000000 else if k = 9 then 5000 else 0) = none := by decide +kernel
theorem test_classify_c4 : (scanScores fun k => if k = 3 ∨ k = 5 then 1000 else 0).idx = 3 := by decide +kernel
theorem test_classify_c7 : scanDecision (scanScores fun k => if k = 7 then 51 else if k = 1 then 49 else 0) = some 7 := by decide +kernel
theorem test_classify_c8 : scanDecision (scanScores fun k => if k = 49 then 50 else 0) = none := by decide +kernel
theorem test_pack_tone : packTone (some 7) = 0x80000007#32 := by decide
theorem test_pack_raw : packRaw (some 0x763813#23) = 0x80763813#32 ∧ packRaw none = 0#32 := by decide
theorem test_wave_len : ([1, 2, 3, 4, 5, 8, 128, 135, 136].map fun t => ({ cr with t := t } : Config.Params).waveLen)
    = [500, 500, 500, 499, 499, 498, 468, 467, 466] := by decide
/-- F2 on the ramp: x(0), x(127), x(128), x(499); F3 on a constant block. -/
theorem test_fir_f2 : ([0, 127, 128, 499].map fun m => fir f2 (fun j => ((j % 1024 : Nat) : Int) - 512) m)
    = [-2044, 2020, -2044, 1636] := by decide
theorem test_fir_f3 : fir f3 (fun _ => 511) 0 = 4599 := by decide
theorem test_golay_encode : ([0x000, 0x001, 0x002, 0x800, 0xFFF, 0x5A5, 0x123, 0x0FF, 0x813].map fun d =>
      (golayEncode cr (BitVec.ofNat 12 d)).toNat)
    = [0x000000, 0x475001, 0x49F002, 0x63A800, 0x7FFFFF, 0x3725A5, 0x056123, 0x6B60FF, 0x763813] := by decide +kernel
theorem test_golay_valid : ([0x000000, 0x763813, 0x763812, 0x773813, 0x001000, 0x7FFFFF, 0x475001, 0x400000].map fun w =>
      golayValid cr (BitVec.ofNat 23 w)) = [true, true, false, false, false, true, true, false] := by decide +kernel
/-- B11 to B14. -/
theorem test_check : ([0x09F63813, 0x0A763813, 0x00000000, 0x7FFFFFFF].map fun w => syncCheck cr (BitVec.ofNat 31 w))
    = [true, false, false, false] := by decide +kernel
/-- R1 to R9 and 0x2AAAAA: the rotation count and the key. -/
theorem test_resolve : ([0x763813, 0x09C7EC, 0x63A800, 0x6B7815, 0x000800, 0x000C00, 0x2AAAAA].map fun w =>
      (resolve cr true (BitVec.ofNat 23 w)).map fun r => (r.rot, r.key.toNat))
    = [some (6, 224), some (3, 253), some (10, 234), some (23, 21), some (23, 0), some (22, 0), some (13, 341)] := by
  decide +kernel
theorem test_resolve_none : ([0x000000, 0x7FFFFF, 0x555555].map fun w => resolve cr true (BitVec.ofNat 23 w))
    = [none, none, none] := by decide +kernel
theorem test_resolve_table : (resolve { cr with aliasLa := List.range 512 } true 0x763813#23).map Resolved.code = some 224#16
    ∧ (resolve { cr with aliasLa := List.range 512 } false 0x763813#23).map Resolved.code = some 0#16 := by decide +kernel
theorem test_pack_resolved : packResolved (some { rot := 6, key := 224#9, code := 0#16 }) = 0x8CE00000#32 := by decide

/-- The hump waveform of 95_test_vectors.md 2.5. -/
def hump (cw : BitVec 23) (off m0 k : Nat) : Int :=
  if cw.getLsbD (((k + off) / 8 + m0) % 23) then ([0, 20, 40, 60, 80, 60, 40, 20] : List Int).getD ((k + off) % 8) 0
  else -(([0, 20, 40, 60, 80, 60, 40, 20] : List Int).getD ((k + off) % 8) 0)

/-- B1, B2, B6 and B7. -/
theorem test_sync_b1 : recoverBits cr (hump 0x763813#23 3 0) (-80) 80 0#23 = some 0x763813#23 := by decide +kernel
theorem test_sync_b2 : (syncLoop (syncInput cr (hump 0x763813#23 2 0) (-80) 80) syncMaxPasses syncInit).map
    (fun st => (st.i, st.bits)) = some (242, 31) := by decide +kernel
theorem test_sync_b6 : recoverBits cr (hump 0x763813#23 3 5) (-80) 80 0#23 = some 0x4FB1C0#23 := by decide +kernel
theorem test_sync_b7 : recoverBits cr (hump 0x763813#23 3 0) (-80) 80 0x7FFFFF#23 = some 0x09C7EC#23 := by decide +kernel

/-! ## Single steps -/

/-- A1 to A3 and A5 to A10: STATUS immediately after a CMD write. -/
theorem test_accept_run : after State.status (exec (.write 3#13 0x00000001#32) loaded) = some 0x1#32 := by decide +kernel
theorem test_accept_score : after State.status (exec (.write 3#13 0x00003104#32) loaded) = some 0x1#32 := by
  decide +kernel
theorem test_operand_error : after State.status (exec (.write 3#13 0x00003204#32) loaded) = some 0x310#32 := by decide
theorem test_command_error : ([0x0000000B, 0x00000101, 0x00000011, 0x00010000].map fun w =>
      after State.status (exec (.write 3#13 (BitVec.ofNat 32 w)) State.reset)) = List.replicate 4 (some 0x208#32) := by
  decide
theorem test_incomplete_error : after State.status (exec (.write 3#13 0x1#32) State.reset) = some 0x420#32 := by
  decide +kernel
theorem test_accept_nop : after State.status (exec .nop State.reset) = some 0x1#32 := by decide
theorem test_busy_error : after State.status (exec (.write 3#13 0xB#32) (busyWith .nop)) = some 0x105#32 := by decide
/-- A4: RECOVER without the waveform. -/
theorem test_recover_incomplete : after State.status (exec .recover State.reset) = some 0x420#32 := by
  have hw : State.waveComplete State.reset = false := by
    rw [Bool.eq_false_iff, ne_eq, waveComplete_iff]
    exact not_waved _ rfl
  have : State.accept .recover State.reset = State.raise .incomplete State.reset := by
    simp [State.accept, operandOutOfRange, needsBlock, needsWave, hw]
  rw [show exec .recover State.reset = .next (State.accept .recover State.reset) from rfl, this]
  decide
/-- The latched configuration is that of the acceptance (P3, step 9). -/
theorem test_latched_arg :
    after State.cfgArg (exec .golayEnc { State.reset with arg := 0x5A5#32, ctrl := 0x3#32 }) = some 0x5A5#32
    ∧ after State.cfgDebug (exec .golayEnc { State.reset with ctrl := 0x3#32 }) = some true
    ∧ after State.cfgInvert (exec .golayEnc { State.reset with ctrl := 0x3#32 }) = some true
    ∧ after State.cfgAlias (exec .golayEnc { State.reset with ctrl := 0x3#32 }) = some false := by decide

/-- The completions, one each: STATUS is DONE and the opcode, with the sticky bits kept (P3, P6). -/
theorem test_nop_done : after State.status (exec .nop { busyWith .nop with status := 0x501#32 }) = some 0x502#32 := by decide
theorem test_clrblk_done : after State.status (exec .clrblk { busyWith .clrblk with status := 0x1001#32 }) = some 0xA002#32 := by
  decide
theorem test_clrblk_clears : after State.sampleValid (exec .clrblk (loadedWith .clrblk)) = some 0#4000 := by decide +kernel
theorem test_golay_enc_done : after State.status (exec .golayEnc { busyWith .golayEnc with status := 0x505#32 })
    = some 0x8506#32 := rfl
theorem test_golay_chk_done : after State.status (exec .golayChk (busyWith .golayChk)) = some 0x9002#32 := rfl
theorem test_resolve_done : after State.status (exec .resolve (busyWith .resolve)) = some 0x7002#32 := rfl
theorem test_classify_incomplete_fault : faultOf (exec .classify (busyWith .classify)) = some .sampleNotValid := by
  decide +kernel
theorem test_other_command_waits : after State.status (exec .golayChk (busyWith .nop)) = some 0x105#32 := by decide

/-- The host accesses of 2.8. -/
theorem test_sample_write : after (fun s => (s.sampleRead 5, s.block 5)) (exec (.write 0x1005#13 0xFFFFF813#32)
    { State.reset with sampleValid := 0#4000 }) = some (0x80000813#32, 4) := by
  decide +kernel
theorem test_wave_write : (State.reset.setWave 3 0xFFFFFFB0#32).waveRead 3 = 0xFFFFFFB0#32
    ∧ (State.reset.setWave 3 0xFFFFFFB0#32).waveValue 3 = -80
    ∧ (State.reset.setWave 3 0xFFFFFFB0#32).waveRead 4 = 0#32 := by decide +kernel
theorem test_ctrl_write : after State.ctrl (exec (.write 1#13 0xFFFFFFFF#32) State.reset) = some 0xF#32 := by decide
theorem test_read_cmd : after State.busData (exec (.read 3#13) { State.reset with busData := 5#32 }) = some 0#32 := by decide
theorem test_id_write : after State.status (exec (.write 0#13 5#32) State.reset) = some 0#32 := by decide
theorem test_clear_status : after State.status (exec (.write 2#13 0x7E#32) { State.reset with status := 0x578#32 })
    = some 0x500#32 := by decide
theorem test_irq : ({ State.reset with ctrl := 0x8#32, status := 0x2#32 } : State).irq = true
    ∧ ({ State.reset with ctrl := 0x4#32, status := 0x7E#32 } : State).irq = false
    ∧ ({ State.reset with ctrl := 0x8#32, status := 0x1F01#32 } : State).irq = false := by decide
theorem test_memory_canonical : (Memory.writeWord [] 0x4000 0x00120034#32).wf = true
    ∧ Memory.writeWord (Memory.writeWord [] 0x4000 0x00120034#32) 0x4000 0#32 = [] := by decide

/-- Steps: the agenda's word, the engine's completion, a misaligned access, the reset pulse. -/
theorem test_step_word : after State.status (step (State.reset.withFetchWord 48 0x200300000000)) = some 0x1#32 := by decide
theorem test_step_cmd_busy : after State.status (step ((busyWith .nop).withFetchWord 32 0xB)) = some 0x105#32 := by decide
theorem test_step_cmd_illegal : after State.status (step (State.reset.withFetchWord 32 0xB)) = some 0x208#32 := by decide
theorem test_step_bad_record : step (State.reset.withWord (.bus 0x000200000001#46)) = .refused .notATransaction := rfl
theorem test_step_completes : after State.status (step (busyWith .nop)) = some 0x2#32 := by decide
theorem test_step_misaligned : after State.status (step { State.reset with agenda := [.access true 5#15 4 9#32] })
    = some 0x540#32 := by decide
theorem test_step_reset : after State.ctrl (step { busyWith .nop with ctrl := 1#32, agenda := [.reset] }) = some 4#32 := by
  decide

/-- The observation of R135: an entry never written shows none, a valid entry its value; the run is over in mode IDLE
although a completion and a reset pulse are still scheduled, and is not while a transaction is. -/
theorem test_observe_valid : (State.reset.setSample 5 0#12).observe.samples.take 7
      = [none, none, none, none, none, some 0#12, none] ∧ State.reset.observe.samples.take 2 = [none, none] := by
  decide +kernel
theorem test_observe_wave (h : 3 < Config.hw.params.waveLen) : (State.reset.setWave 3 0#32).observe.waves[3]? = some (some 0)
    ∧ State.reset.observe.waves[3]? = some none := by
  refine ⟨?_, ?_⟩
  · simp only [State.observe, List.getElem?_map, List.getElem?_range h]
    decide +kernel
  · simp only [State.observe, List.getElem?_map, List.getElem?_range h]
    decide +kernel
theorem test_finished : State.finished { State.reset with agenda := [.complete, .reset] }
    ∧ ¬ State.finished { State.reset with agenda := [.complete, .word (.cmd 0#32)] } := by
  refine ⟨⟨?_, rfl⟩, fun h => h.1 (.word (.cmd 0#32)) (by simp) trivial⟩
  intro e he
  simp only [List.mem_cons, List.not_mem_nil, or_false] at he
  rcases he with rfl | rfl <;> exact id

/-- The assembly of P1 to P4 (R71, R72): the BUS records the lines are. -/
theorem test_assembly : assemble [.wr (.reg .arg) 0x813#32, .cmd .golayEnc, .rd (.reg .result), .wr (.wave 14) 0xFFFFFFEC#32,
      .rd (.offset 0x0800#15), .wr (.sample 3999) 0xE7C#32]
    = [.word (.bus 0x200400000813#46), .word (.bus 0x200300000008#46), .word (.bus 0x000500000000#46),
      .word (.bus 0x240EFFFFFFEC#46), .word (.bus 0x020000000000#46), .word (.bus 0x3F9F00000E7C#46)] := by decide
theorem test_pseudo : expand (.toggleInvert 0x4#32) = [.rd (.reg .ctrl), .wr (.reg .ctrl) 0x6#32]
    ∧ expand .clearStatus = [.wr (.reg .status) 0x7E#32] := by decide

/-! ## Witnesses: for every statement with hypotheses, values that meet all of them, clause by clause -/

theorem witness_DecodedWordIsTheEncoding : decode (.cmd 0x00003104#32) = .ok (.score 0x31#8)
    ∧ decode (.bus 0x240EFFFFFFEC#46) = .ok (.write 0x40E#13 0xFFFFFFEC#32) := ⟨rfl, rfl⟩

/-- The clauses of R69 at the ends of their ranges: RSV1 and RSV0 not 0, OP 0xB and 0xF, OP 0xA with ARG8, SCORE. -/
theorem witness_CmdWordDecodesInOrder :
    (0x00010000#32).extractLsb' 16 16 ≠ 0#16 ∧ (0x00000010#32).extractLsb' 4 4 ≠ 0#4
    ∧ (0xB ≤ ((0x0000000B#32).extractLsb' 0 4).toNat ∧ (0x0000000B#32).extractLsb' 16 16 = 0#16)
    ∧ (0xB ≤ ((0x0000000F#32).extractLsb' 0 4).toNat ∧ (0x0000000F#32).extractLsb' 4 4 = 0#4)
    ∧ (((0x0000010A#32).extractLsb' 0 4).toNat ≤ 0xA ∧ (0x0000010A#32).extractLsb' 0 4 ≠ 4#4
        ∧ (0x0000010A#32).extractLsb' 8 8 ≠ 0#8)
    ∧ (((0x0000FF04#32).extractLsb' 0 4).toNat ≤ 0xA ∧ (0x0000FF04#32).extractLsb' 0 4 = 4#4)
    ∧ decode (.cmd 0x0000000B#32) = .error .reservedOpcode ∧ State.reset.busy = false := by
  refine ⟨by decide, by decide, by decide, by decide, by decide, by decide, rfl, by decide⟩

theorem witness_StepRunsThePresentedWord :
    ((State.reset.withWord (.cmd 0x1#32)).agenda = .word (.cmd 0x1#32) :: []
      ∧ decode (.cmd 0x1#32) = .ok .run ∧ (State.reset.withWord (.cmd 0x1#32)).busy = false)
    ∧ (((busyWith .nop).withWord (.bus 0x000200000000#46)).agenda = .word (.bus 0x000200000000#46) :: []
      ∧ decode (.bus 0x000200000000#46) = .ok (.read 2#13)
      ∧ ¬ ∃ w, Encoded.bus 0x000200000000#46 = .cmd w)
    ∧ ((State.reset.withWord (.cmd 0xB#32)).agenda = .word (.cmd 0xB#32) :: []
      ∧ decode (.cmd 0xB#32) = .error .reservedOpcode ∧ (State.reset.withWord (.cmd 0xB#32)).busy = false)
    ∧ ((busyWith .nop).withWord (.cmd 0x1#32)).busy = true :=
  ⟨⟨rfl, rfl, rfl⟩, ⟨rfl, rfl, by simp⟩, ⟨rfl, rfl, rfl⟩, rfl⟩

theorem witness_EngineStepRunsThePendingCommand :
    ((busyWith .nop).busy = true ∧ (busyWith .nop).agenda = [])
    ∧ (({ busyWith .nop with agenda := [.complete] } : State).busy = true
      ∧ ({ busyWith .nop with agenda := [.complete] } : State).agenda = .complete :: [])
    ∧ (State.reset.busy = false ∧ State.reset.agenda = [])
    ∧ ({ State.reset with agenda := [.complete] } : State).busy = false := ⟨⟨rfl, rfl⟩, ⟨rfl, rfl⟩, ⟨rfl, rfl⟩, rfl⟩

/-- An admitted access at the last offset, a misaligned one, a narrow one, a narrow read. -/
theorem witness_RawAccessIsAdmittedOrRefused :
    (({ State.reset with agenda := [.access true 0x7FFC#15 4 9#32] } : State).agenda = .access true 0x7FFC#15 4 9#32 :: []
      ∧ (0x7FFC#15).toNat % 4 = 0)
    ∧ ¬ ((0x7FFF#15).toNat % 4 = 0 ∧ 4 = 4) ∧ ¬ ((0x0004#15).toNat % 4 = 0 ∧ 2 = 4) := by
  refine ⟨⟨rfl, by decide⟩, by decide, by decide⟩

theorem witness_ResetInputGivesTheResetState :
    ({ busyWith .run with agenda := [.reset, .complete] } : State).agenda = .reset :: [.complete] := rfl

/-- Each clause of R121: BUSY; IDLE with an illegal word; SCORE at 50 and at 255; the block missing for SCORE 49; the
waveform missing; a command that is ready: NOP, SCORE 49 with the block, RECOVER with the waveform. -/
theorem witness_CmdWriteChecksInOrder :
    (busyWith .nop).busy = true
    ∧ (State.reset.busy = false ∧ decode (.cmd 0xB#32) = .error .reservedOpcode)
    ∧ (decode (.cmd 0x3204#32) = .ok (Command.toInstr (.score 50#8)) ∧ 50 ≤ (50#8).toNat)
    ∧ (decode (.cmd 0xFF04#32) = .ok (Command.toInstr (.score 255#8)) ∧ 50 ≤ (255#8).toNat)
    ∧ (decode (.cmd 0x3104#32) = .ok (Command.toInstr (.score 49#8)) ∧ (49#8).toNat < 50 ∧ ¬ blockLoaded State.reset)
    ∧ (decode (.cmd 0x6#32) = .ok (Command.toInstr .recover) ∧ ¬ waveLoaded State.reset)
    ∧ commandReady .nop State.reset
    ∧ (loaded.busy = false ∧ commandReady (.score 49#8) loaded)
    ∧ commandReady .recover { State.reset with waveValid := BitVec.allOnes 500 } := by
  refine ⟨rfl, ⟨rfl, rfl⟩, ⟨rfl, by decide⟩, ⟨rfl, by decide⟩, ⟨rfl, by decide, not_loaded _ rfl⟩, ⟨rfl, not_waved _ rfl⟩,
    ?_, ⟨rfl, ?_⟩, ?_⟩
  · simp [commandReady, ramReady, consumesBlock]
  · simp [commandReady, ramReady, loaded_ready loaded rfl]
  · exact recover_ready _ rfl

theorem witness_CommandInIdleIsTheCmdWrite : State.reset.busy = false ∧ loaded.busy = false := ⟨rfl, rfl⟩

/-- Unmapped word offsets on both sides of every mapped range. -/
theorem witness_UnmappedAccessRaisesAddressError :
    ∀ a ∈ [0x042, 0x3FF, 0x400 + Config.hw.params.waveLen, 0xFFF, 0x1FA0, 0x1FFF],
      ¬ (4 * (BitVec.ofNat 13 a).toNat < 0x108
        ∨ (0x1000 ≤ 4 * (BitVec.ofNat 13 a).toNat
            ∧ 4 * (BitVec.ofNat 13 a).toNat < 0x1000 + 4 * Config.hw.params.waveLen)
        ∨ (0x4000 ≤ 4 * (BitVec.ofNat 13 a).toNat ∧ 4 * (BitVec.ofNat 13 a).toNat < 0x4000 + 4 * 4000)) := by
  have := waveLen_bounds Config.hw.ok
  simp only [List.mem_cons, List.not_mem_nil, or_false, BitVec.toNat_ofNat]
  omega

theorem witness_NopCompletes : (busyWith .nop).busy = true ∧ (busyWith .nop).pending = .nop := ⟨rfl, rfl⟩
theorem witness_GolayEncCompletes : (busyWith .golayEnc).busy = true ∧ (busyWith .golayEnc).pending = .golayEnc := ⟨rfl, rfl⟩
theorem witness_GolayChkCompletes : (busyWith .golayChk).busy = true ∧ (busyWith .golayChk).pending = .golayChk := ⟨rfl, rfl⟩
theorem witness_ResolveCompletes : (busyWith .resolve).busy = true ∧ (busyWith .resolve).pending = .resolve := ⟨rfl, rfl⟩
theorem witness_ClrblkCompletes : (loadedWith .clrblk).busy = true ∧ (loadedWith .clrblk).pending = .clrblk := ⟨rfl, rfl⟩
theorem witness_ScoreCompletes :
    ((loadedWith (.score 0#8)).busy = true ∧ (loadedWith (.score 0#8)).pending = .score 0#8 ∧ (0#8).toNat < 50
      ∧ blockLoaded (loadedWith (.score 0#8)))
    ∧ (loadedWith (.score 49#8)).busy = true ∧ (loadedWith (.score 49#8)).pending = .score 49#8 ∧ (49#8).toNat < 50
      ∧ blockLoaded (loadedWith (.score 49#8)) :=
  ⟨⟨rfl, rfl, by decide, loaded_ready _ rfl⟩, rfl, rfl, by decide, loaded_ready _ rfl⟩
theorem witness_ClassifyCompletes :
    (loadedWith .classify).busy = true ∧ (loadedWith .classify).pending = .classify ∧ blockLoaded (loadedWith .classify)
    ∧ (loadedWith .classify).cfgDebug = false ∧ ({ loadedWith .classify with cfgDebug := true } : State).cfgDebug = true :=
  ⟨rfl, rfl, loaded_ready _ rfl, rfl, rfl⟩
theorem witness_FilterCompletes :
    (loadedWith .filter).busy = true ∧ (loadedWith .filter).pending = .filter ∧ blockLoaded (loadedWith .filter)
      ∧ (loadedWith .filter).mem.wf = true ∧ 0 < Config.hw.params.waveLen ∧ outsideWave 0xFFF ∧ outsideWave 0x4000 := by
  have := waveLen_bounds Config.hw.ok
  refine ⟨rfl, rfl, loaded_ready _ rfl, rfl, by omega, ?_, ?_⟩ <;> intro m hm <;> simp only [waveOffset] <;> omega
theorem witness_RecoverCompletes :
    (wavedWith .recover).busy = true ∧ (wavedWith .recover).pending = .recover ∧ waveLoaded (wavedWith .recover) :=
  ⟨rfl, rfl, waved_ready _ rfl⟩
theorem witness_DcsCompletes :
    (loadedWith .dcs).busy = true ∧ (loadedWith .dcs).pending = .dcs ∧ blockLoaded (loadedWith .dcs)
      ∧ (loadedWith .dcs).mem.wf = true := ⟨rfl, rfl, loaded_ready _ rfl, rfl⟩
theorem witness_RunCompletesAsClassifyAndDcs :
    (loadedWith .run).busy = true ∧ (loadedWith .run).pending = .run ∧ blockLoaded (loadedWith .run) :=
  ⟨rfl, rfl, loaded_ready _ rfl⟩

/-- The last SAMPLE entry, the first and the last WAVE entry, and both cases of the WAVE window. -/
theorem witness_ReadReturnsTheWord :
    3999 < 4000 ∧ 0 < Config.hw.params.waveLen ∧ Config.hw.params.waveLen - 1 < Config.hw.params.waveLen
    ∧ ¬ (State.reset.busy = true ∧ (State.reset.pending = .filter ∨ State.reset.pending = .dcs ∨ State.reset.pending = .run))
    ∧ (loadedWith .dcs).busy = true ∧ (loadedWith .dcs).pending = .dcs := by
  have := waveLen_bounds Config.hw.ok
  refine ⟨by omega, by omega, by omega, by decide, rfl, rfl⟩

theorem witness_RegisterWriteStoresTheFields : State.reset.busy = false ∧ 0 ∈ [0, 5, 6, 7, 8, 9, 10, 11, 14, 15]
    ∧ 15 ∈ [0, 5, 6, 7, 8, 9, 10, 11, 14, 15] ∧ 49 < 50 := by decide

theorem witness_WindowWriteStoresTheEntry : State.reset.busy = false ∧ State.reset.mem.wf = true ∧ 3999 < 4000
    ∧ Config.hw.params.waveLen - 1 < Config.hw.params.waveLen := by
  have := waveLen_bounds Config.hw.ok
  refine ⟨rfl, rfl, by omega, by omega⟩

theorem witness_WritesWhileBusyAreRefused : (busyWith .nop).busy = true ∧ 3999 < 4000
    ∧ Config.hw.params.waveLen - 1 < Config.hw.params.waveLen := by
  have := waveLen_bounds Config.hw.ok
  refine ⟨rfl, by omega, by omega⟩

theorem witness_LoadBlockLoadsTheBlock :
    (List.replicate 4000 0x813#12).length = 4000
    ∧ ({ State.reset with agenda := assemble (expand (.loadBlock (List.replicate 4000 0x813#12))) } : State).busy = false
    ∧ ({ State.reset with agenda := assemble (expand (.loadBlock (List.replicate 4000 0x813#12))) } : State).mem.wf = true :=
  ⟨List.length_replicate, rfl, rfl⟩

theorem witness_AngleIsTheMiddleBits : (0 * 5 + 1024) % 2 ^ 21 = (0 * 7 + 1024) % 2 ^ 21
    ∧ (1 * 2097152 + 1024) % 2 ^ 21 = (1 * 0 + 1024) % 2 ^ 21 := by decide

/-- The extremes of a centred sample, and a configuration that is well formed. -/
theorem witness_ToneValuesStayInBounds : cr.wf = true
    ∧ (∀ j : Nat, -512 ≤ (fun _ : Nat => (-512 : Int)) j ∧ (fun _ : Nat => (-512 : Int)) j ≤ 511)
    ∧ ∀ j : Nat, -512 ≤ (fun _ : Nat => (511 : Int)) j ∧ (fun _ : Nat => (511 : Int)) j ≤ 511 :=
  ⟨test_config_wf.1, fun _ => by simp, fun _ => by simp⟩

theorem witness_ScanFindsTheLowestMaximum : ∀ k : Nat, k < 50 → 0 ≤ (fun i : Nat => if i = 3 ∨ i = 5 then (1000 : Int) else 0) k := by
  decide

/-- Scores with a maximum at 49, and scores whose maximum is the reserved entry's. -/
theorem witness_DecisionExcludesTheReservedTone :
    (∀ k : Nat, k < 50 → 0 ≤ (fun i : Nat => if i = 49 then (51 : Int) else 0) k)
    ∧ (∀ k : Nat, k < 50 → 0 ≤ (fun i : Nat => if i = 0 then (1000 : Int) else 10) k)
    ∧ ∀ i : Nat, i < 50 → (fun i : Nat => if i = 0 then (1000 : Int) else 10) i
        ≤ (fun i : Nat => if i = 0 then (1000 : Int) else 10) 0 := by decide

theorem witness_ClassifierValuesStayInBounds :
    (∀ k : Nat, k < 50 → 0 ≤ (fun _ : Nat => (2000000 : Int)) k ∧ (fun _ : Nat => (2000000 : Int)) k ≤ 2000000)
    ∧ ∀ k : Nat, k < 50 → 0 ≤ (fun _ : Nat => (0 : Int)) k ∧ (fun _ : Nat => (0 : Int)) k ≤ 2000000 :=
  ⟨fun _ _ => by simp, fun _ _ => by simp⟩

theorem witness_SilentBlockGivesNoTone : ∀ j : Nat, j < 4000 → (fun i : Nat => if i < 4000 then (0 : Int) else 7) j = 0 := by
  intro j hj
  simp [hj]

/-- Two lanes in the other order, and the number of lanes at both ends. -/
theorem witness_LanesReduceToTheSequentialScan :
    (∀ k : Nat, k < 50 → 0 ≤ (fun i : Nat => if i = 3 ∨ i = 5 then (1000 : Int) else 0) k)
    ∧ ([(List.range 50).filter (fun k => decide (25 ≤ k)), (List.range 50).filter (fun k => decide (k < 25))] :
        List (List Nat)).flatten.Perm (List.range 50)
    ∧ 1 ≤ 1 ∧ 50 ≤ 50 := by
  refine ⟨by decide, by decide +kernel, le_refl _, le_refl _⟩

theorem witness_FilterIsItsImpulseResponse : 1 ≤ cr.t ∧ 1 ≤ f3.t := by decide

/-- The last output of F2, which reads up to sample 3994. -/
theorem witness_FilterReadsInsideTheBlock : f2.wf = true ∧ 499 < f2.waveLen
    ∧ ∀ j : Nat, 8 * 499 ≤ j → j ≤ 8 * 499 + 2 * f2.t - 2 → j ≤ 3997 →
      (fun _ : Nat => (1 : Int)) j = (fun i : Nat => if i ≤ 3994 then (1 : Int) else 0) j := by
  refine ⟨test_config_wf.2.1, by decide, ?_⟩
  intro j h1 h2 _
  have : f2.t = 2 := rfl
  have : j ≤ 3994 := by omega
  simp [this]

theorem witness_FilterOutputsFitTheWord : f3.wf = true
    ∧ ∀ j : Nat, -512 ≤ (fun _ : Nat => (511 : Int)) j ∧ (fun _ : Nat => (511 : Int)) j ≤ 511 :=
  ⟨test_config_wf.2.2, fun _ => by simp⟩

theorem witness_ThresholdTruncatesTowardZero : (0 : Int) ≤ 0 ∧ (-1 : Int) < 0 ∧ (-80 : Int) ≤ 80 := by decide

theorem witness_TransitionTableIsTheAlgorithm : 2500 ≤ 2500 ∧ 2500 ≤ 4000 := by decide

theorem witness_SynchroniserReadsInsideTheWaveform :
    (∀ k : Nat, k ≤ 466 → hump 0x763813#23 3 0 k = (fun i : Nat => if i ≤ 466 then hump 0x763813#23 3 0 i else 0) k)
    ∧ cr.wf = true := by
  refine ⟨?_, test_config_wf.1⟩
  intro k hk
  simp [hk]

theorem witness_SynchroniserCountersAreBounded : 0 ≤ 464 ∧ 464 ≤ 464 ∧ 464 ≤ 500 := by decide

/-- B10: the completions of a flat waveform start at 1 and there are 58 of them. -/
theorem witness_CompletionsAreSixToNineApart :
    (completionsFrom (syncInput cr (fun _ => 0) 0 0) syncMaxPasses syncInit).head? = some 1
    ∧ (completionsFrom (syncInput cr (fun _ => 0) 0 0) syncMaxPasses syncInit).length = 58 := by decide +kernel

theorem witness_GolayLawsHoldForEveryTable : golayValid cr 0x763813#23 = true ∧ golayValid cr 0x475001#23 = true
    ∧ 12 ≤ 12 ∧ 22 < 23 ∧ 0 < 12 ∧ 11 < 12 := by decide +kernel

theorem witness_CodewordIsDataAndRowParity : 0 < 11 ∧ 10 < 11 := by decide

/-- Rotation counts at both ends of the search: k = 23 with every earlier rotation failing, and k = 1. -/
theorem witness_ResolveFindsTheFirstMarker :
    (resolve cr true 0x000800#23).map Resolved.rot = some 23 ∧ (resolve cr true 0x001000#23).map Resolved.rot = some 1
    ∧ 1 ≤ 1 ∧ 1 < 23 := by decide +kernel

theorem witness_ResolveFailsWithoutACyclicMarker : 0 < 23 ∧ 22 < 23 := by decide

/-- The XOR of two codewords has the parity of its data: the code is linear (R108). -/
theorem golayValid_xor_of {p : Config.Params} {v w : BitVec 23}
    (hv : golayParity p (v.setWidth 12) = v.extractLsb' 12 11)
    (hw : golayParity p (w.setWidth 12) = w.extractLsb' 12 11) :
    golayParity p ((v ^^^ w).setWidth 12) = (v ^^^ w).extractLsb' 12 11 := by
  rw [BitVec.setWidth_xor, golayParity_xor, hv, hw]
  ext i hi
  simp

/-- The twelve unit codewords of CR and their rotations are codewords. -/
theorem cr_units : ∀ b < 12, golayValid cr (golayEncode cr (BitVec.twoPow 12 b)) = true
    ∧ golayValid cr (rotr23 (golayEncode cr (BitVec.twoPow 12 b))) = true
    ∧ (golayEncode cr (BitVec.twoPow 12 b)).setWidth 12 = BitVec.twoPow 12 b := by decide +kernel

/-- Under CR every rotation of a codeword is a codeword: unit word by unit word, the code being linear. -/
theorem cr_cyclic (n : Nat) : n ≤ 12 → ∀ w : BitVec 23, golayValid cr w = true → (w.setWidth 12).toNat < 2 ^ n →
    golayValid cr (rotr23 w) = true := by
  induction n with
  | zero =>
    intro _ w hw h0
    have hl : w.setWidth 12 = 0#12 := BitVec.eq_of_toNat_eq (by simpa using h0)
    have : w = 0#23 := by
      simp only [golayValid, beq_iff_eq, hl] at hw
      rw [← hw]
      decide +kernel
    rw [this]
    decide +kernel
  | succ n ih =>
    intro hn w hw hlt
    obtain ⟨u1, u2, u3⟩ := cr_units n (by omega)
    by_cases hb : (w.setWidth 12).getLsbD n
    · have hx : golayValid cr (w ^^^ golayEncode cr (BitVec.twoPow 12 n)) = true := by
        rw [golayValid_iff] at *
        exact golayValid_xor_of hw u1
      have hr := ih (by omega) _ hx (by
        rw [BitVec.setWidth_xor, u3]
        apply Nat.lt_pow_two_of_testBit
        intro i hi
        rw [BitVec.toNat_xor, Nat.testBit_xor, BitVec.testBit_toNat, BitVec.testBit_toNat, BitVec.getLsbD_twoPow]
        rcases Nat.eq_or_lt_of_le hi with rfl | hi
        · simp [hb]
          omega
        · have : (w.setWidth 12).getLsbD i = false := by
            rw [← BitVec.testBit_toNat]
            exact Nat.testBit_lt_two_pow (lt_of_lt_of_le hlt (Nat.pow_le_pow_right (by norm_num) hi))
          rw [this]
          simp
          omega)
      rw [rotr23_xor] at hr
      rw [golayValid_iff] at *
      have h3 := golayValid_xor_of hr u2
      rwa [BitVec.xor_assoc, BitVec.xor_self, BitVec.xor_zero] at h3
    · refine ih (by omega) w hw ?_
      apply Nat.lt_pow_two_of_testBit
      intro i hi
      rw [BitVec.testBit_toNat]
      rcases Nat.eq_or_lt_of_le hi with rfl | hi
      · simpa using hb
      · rw [← BitVec.testBit_toNat]
        exact Nat.testBit_lt_two_pow (lt_of_lt_of_le hlt (Nat.pow_le_pow_right (by norm_num) hi))

/-- Both hypotheses hold of CR with its all-zero alias maps; 0x763813 is a codeword. -/
theorem witness_RotatedCodewordsResolveAlike :
    (∀ w : BitVec 23, golayValid cr w = true → golayValid cr (rotr23 w) = true)
    ∧ (∀ (w : BitVec 23) (r r' : Resolved), golayValid cr w = true → resolve cr true w = some r →
      resolve cr true (rotr23 w) = some r' → r.code = r'.code)
    ∧ golayValid cr 0x763813#23 = true := by
  have hcode : ∀ (fuel k : Nat) (raw : BitVec 23) (r : Resolved), resolveFrom cr true fuel k raw = some r → r.code = 0#16 := by
    intro fuel
    induction fuel with
    | zero => simp [resolveFrom]
    | succ n ih =>
      intro k raw r h
      simp only [resolveFrom] at h
      split at h
      · injection h with h
        subst h
        simp only [Config.Params.aliasEntry, if_true, cr, Config.wellFormedExample, List.getD_eq_getElem?_getD,
          List.getElem?_replicate]
        split <;> rfl
      · exact ih _ _ _ h
  refine ⟨?_, ?_, by decide +kernel⟩
  · intro w hw
    exact cr_cyclic 12 (le_refl _) w hw (w.setWidth 12).isLt
  · intro w r r' _ h h'
    rw [hcode _ _ _ _ h, hcode _ _ _ _ h']

theorem witness_ResolvedWordHasItsFields :
    (resolve cr true 0x763813#23).isSome = true ∧ (resolve cr true 0x000800#23).map Resolved.rot = some 23 := by
  decide +kernel

/-- The invariant of a state that differs from the reset state in the agenda, the mode and the loaded block. -/
theorem busyNop_inv (l : List Event) : State.Inv { loadedWith .nop with agenda := l } := by
  refine ⟨rfl, ?_, ?_, ?_, ?_⟩
  · simp [reservedClear, loadedWith, busyWith, State.reset, regMask, ctrlMask, statusMask]
  · simp [codesLegal, State.lastErr, State.lastOp, loadedWith, busyWith, State.reset]
  · intro k hk
    simp [loadedWith, busyWith, State.reset] at hk
  · intro _
    simp [commandReady, ramReady, consumesBlock, loadedWith, busyWith]

/-- Four moves of the host: a write of CMD, an illegal word at CMD, a misaligned write, a narrow read. -/
def hostMoves : List Event :=
  [.word (.bus 0x200300000001#46), .word (.cmd 0xB#32), .access true 5#15 4 9#32, .access false 4#15 2 0#32]

theorem hostMoves_ok : ∀ e ∈ hostMoves, isHostMove e ∧ eventWellFormed e := by
  intro e he
  simp only [hostMoves, List.mem_cons, List.not_mem_nil, or_false] at he
  rcases he with rfl | rfl | rfl | rfl
  · refine ⟨trivial, ?_⟩
    show (Encoded.bus 0x200300000001#46).wf = true
    decide
  all_goals exact ⟨trivial, trivial⟩

/-- A busy state with other control and result registers, other error bits and other moves to come. -/
def scrambled (s : State) : State :=
  { s with
    ctrl := 3#32, arg := 7#32, status := 0x545#32, result := 9#32, toneResult := 0x80000005#32, toneMax := 8#32
    toneAvg := 1#32, toneMaxIdx := 3#32, dcsResult := 0x80000001#32, dcsRaw := 0x80000002#32
    scores := Vector.replicate 50 6#32, agenda := hostMoves, busData := 4#32, draws := 2 }

theorem witness_EveryStepKeepsTheInvariant :
    State.Inv { loadedWith .nop with agenda := [.complete] }
    ∧ ∃ t, step { loadedWith .nop with agenda := [.complete] } = .next t :=
  ⟨busyNop_inv _, _, rfl⟩

theorem witness_NoStepStops :
    State.Inv { loadedWith .nop with agenda := [.word (.bus 0x200300000001#46), .complete] }
    ∧ agendaWellFormed { loadedWith .nop with agenda := [.word (.bus 0x200300000001#46), .complete] } := by
  refine ⟨busyNop_inv _, ?_⟩
  intro e he
  simp only [List.mem_cons, List.not_mem_nil, or_false] at he
  rcases he with rfl | rfl
  · show (Encoded.bus 0x200300000001#46).wf = true
    decide
  · trivial

/-- Two records stand before the completion: the run is three steps. -/
theorem witness_EveryAcceptedCommandEnds :
    State.Inv { loadedWith .nop with agenda := hostMoves.take 2 }
    ∧ agendaWellFormed { loadedWith .nop with agenda := hostMoves.take 2 }
    ∧ ({ loadedWith .nop with agenda := hostMoves.take 2 } : State).busy = true :=
  ⟨busyNop_inv _, fun e he => (hostMoves_ok e (List.mem_of_mem_take he)).2, rfl⟩

/-- A legal record, a CMD word that is illegal, a misaligned write and a narrow read, then the completion. -/
theorem witness_CompletionFallsAnywhere :
    (busyWith .nop).busy = true ∧ (∀ e ∈ hostMoves, isHostMove e ∧ eventWellFormed e)
    ∧ ∃ t, step { busyWith .nop with agenda := .complete :: [.reset] } = .next t :=
  ⟨rfl, hostMoves_ok, _, rfl⟩

/-- Two states that differ in CTRL, ARG, STATUS, every result register and the moves to come: for a command without
operands from the RAMs, for RUN, and for RECOVER. -/
theorem witness_CompletionReadsOnlyItsInputs : ∀ s ∈ [busyWith .golayEnc, loadedWith .run, wavedWith .recover],
    s.busy = true ∧ (scrambled s).busy = true ∧ s.mem.wf = true ∧ (scrambled s).mem.wf = true ∧ sameInputs s (scrambled s)
    ∧ ∃ t, exec s.pending.toInstr s = .next t := by
  intro s hs
  simp only [List.mem_cons, List.not_mem_nil, or_false] at hs
  rcases hs with rfl | rfl | rfl
  · exact ⟨rfl, by decide, rfl, rfl, by simp [sameInputs, scrambled, busyWith, consumesBlock], _, rfl⟩
  · refine ⟨rfl, by decide, rfl, rfl, ?_, _, exec_pending rfl ⟨fun _ => loaded_ready _ rfl, nofun⟩⟩
    exact ⟨rfl, rfl, rfl, rfl, rfl, rfl, rfl, fun _ _ _ => rfl, nofun, fun _ => ⟨rfl, rfl⟩⟩
  · refine ⟨rfl, by decide, rfl, rfl, ?_, _, exec_pending rfl ⟨?_, fun _ => waved_ready _ rfl⟩⟩
    · exact ⟨rfl, rfl, rfl, rfl, rfl, rfl, rfl, fun _ _ _ => rfl, fun _ => ⟨fun _ _ => rfl, rfl, rfl⟩, nofun⟩
    · simp [consumesBlock, wavedWith, busyWith]

/-- Each of the two changes happens: CTRL by a write, IDLE_TIMEOUT by reset. -/
theorem witness_ConfigurationChangesInThreeWays :
    (∃ t, step (State.reset.withWord (.bus 0x20010000000F#46)) = .next t
      ∧ t.ctrl ≠ (State.reset.withWord (.bus 0x20010000000F#46)).ctrl)
    ∧ ∃ t, step { State.reset with idleTimeout := 9#32, agenda := [.reset] } = .next t ∧ t.idleTimeout ≠ 9#32 := by
  refine ⟨⟨_, rfl, by decide⟩, _, rfl, by decide⟩

end Sys2Proof.Tests
end

section
/-! SUPPORT. The fields of the words that a commit leaves in the result registers (R32, R35 to R37), and which of their
bits stay 0. -/

namespace Sys2Proof.Machine

/-! Reserved bits (R25). -/

/-- A word lies inside a mask exactly when it has no bit where the mask has none. -/
theorem andNot_eq_zero_iff (w m : Word) :
    w &&& ~~~m = 0#32 ↔ ∀ b, b < 32 → m.getLsbD b = false → w.getLsbD b = false := by
  constructor
  · intro h b hb hm
    have hbit : (w &&& ~~~m).getLsbD b = false := by rw [h, BitVec.getLsbD_zero]
    rw [BitVec.getLsbD_and, BitVec.getLsbD_not, hm] at hbit
    simpa [hb] using hbit
  · intro h
    apply BitVec.eq_of_getLsbD_eq
    intro b hb
    rw [BitVec.getLsbD_and, BitVec.getLsbD_not, BitVec.getLsbD_zero]
    cases hm : m.getLsbD b
    · rw [h b hb hm, Bool.false_and]
    · simp

theorem status_reservedBit_iff : ∀ b < 32, (regMask .status).getLsbD b = false ↔ b = 7 ∨ 16 ≤ b := by decide

theorem toneResult_reservedBit : ∀ b < 32, (regMask .toneResult).getLsbD b = false → 6 ≤ b ∧ b < 31 := by decide

theorem toneMaxIdx_reservedBit : ∀ b < 32, (regMask .toneMaxIdx).getLsbD b = false → 6 ≤ b := by decide

theorem dcsResult_reservedBit : ∀ b < 32, (regMask .dcsResult).getLsbD b = false → b = 30 := by decide

theorem dcsRaw_reservedBit : ∀ b < 32, (regMask .dcsRaw).getLsbD b = false → 23 ≤ b ∧ b < 31 := by decide

/-! The tone registers (R32, R35). -/

/-- A scan's index is one of the indices scanned. -/
theorem scanStep_foldl_idx_lt (sc : Nat → Int) {n : Nat} (l : List Nat) (a : ToneScan) (ha : a.idx < n)
    (hl : ∀ k ∈ l, k < n) : (l.foldl (scanStep sc) a).idx < n := by
  induction l generalizing a with
  | nil => exact ha
  | cons k r ih =>
    obtain ⟨hk, hr⟩ := List.forall_mem_cons.1 hl
    refine ih _ ?_ hr
    rw [scanStep]
    split
    · exact hk
    · exact ha

/-- The maximum stands at one of the 50 tones (R79). -/
theorem scanScores_idx_lt (sc : Nat → Int) : (scanScores sc).idx < 50 :=
  scanStep_foldl_idx_lt sc _ _ (by decide) fun _ hk => List.mem_range.1 hk

/-- The tone decided on is the one at the maximum (R79, R81). -/
theorem scanDecision_eq_some {a : ToneScan} {k : Nat} (h : scanDecision a = some k) : k = a.idx := by
  rw [scanDecision] at h
  split at h
  · injection h with h
    exact h.symm
  · cases h

theorem ofNat_bit_of_lt {k b : Nat} (hk : k < 64) (hb : 6 ≤ b) : (BitVec.ofNat 32 k).getLsbD b = false := by
  have hpow : 2 ^ 6 ≤ 2 ^ b := Nat.pow_le_pow_right (by decide) hb
  rw [BitVec.getLsbD_ofNat, Nat.testBit_lt_two_pow (lt_of_lt_of_le hk hpow), Bool.and_false]

/-- TONE_MAXIDX has only its six index bits (R35). -/
theorem toneMaxIdx_reserved {k : Nat} (hk : k < 64) : BitVec.ofNat 32 k &&& ~~~regMask .toneMaxIdx = 0#32 := by
  rw [andNot_eq_zero_iff]
  intro b hb hm
  exact ofNat_bit_of_lt hk (toneMaxIdx_reservedBit b hb hm)

/-- TONE_RESULT has only VALID and the six index bits (R32). -/
theorem packTone_reserved {r : Option Nat} (hr : ∀ k, r = some k → k < 64) :
    packTone r &&& ~~~regMask .toneResult = 0#32 := by
  cases r with
  | none => simp [packTone]
  | some k =>
    rw [andNot_eq_zero_iff]
    intro b hb hm
    obtain ⟨hlo, hhi⟩ := toneResult_reservedBit b hb hm
    have hvalid : (0x80000000#32).getLsbD b = false := by
      revert hhi b
      decide
    rw [packTone, BitVec.getLsbD_or, hvalid, ofNat_bit_of_lt (hr k rfl) hlo, Bool.or_false]

/-! DCS_RAW (R37). -/

/-- DCS_RAW has only SYNC_OK and the 23 word bits (R37). -/
theorem packRaw_reserved (r : Option (BitVec 23)) : packRaw r &&& ~~~regMask .dcsRaw = 0#32 := by
  cases r with
  | none => simp [packRaw]
  | some v =>
    rw [andNot_eq_zero_iff]
    intro b hb hm
    obtain ⟨hlo, hhi⟩ := dcsRaw_reservedBit b hb hm
    have hok : (0x80000000#32).getLsbD b = false := by
      revert hhi b
      decide
    rw [packRaw, BitVec.getLsbD_or, hok, BitVec.getLsbD_setWidth, BitVec.getLsbD_of_ge v b hlo]
    simp

/-! DCS_RESULT (R36). -/

/-- A search with `fuel` rotations left, the next one the k-th, matches before rotation k + fuel (R114). -/
theorem resolveFrom_rot_lt {p : Config.Params} {la : Bool} {fuel k : Nat} {x : BitVec 23} {r : Resolved}
    (h : resolveFrom p la fuel k x = some r) : r.rot < k + fuel := by
  induction fuel generalizing k x with
  | zero => cases h
  | succ fuel ih =>
    rw [resolveFrom] at h
    split at h
    · injection h with h
      subst h
      show k < k + (fuel + 1)
      omega
    · have := ih h
      omega

/-- ROT is at most 23 (R36, R114). -/
theorem resolve_rot_le {p : Config.Params} {la : Bool} {raw : BitVec 23} {r : Resolved}
    (h : resolve p la raw = some r) : r.rot ≤ 23 := by
  have hlt : r.rot < 1 + 23 := resolveFrom_rot_lt h
  omega

/-- Every bit of the DCS_RESULT word of a resolution: FOUND at 31, ROT from 25, KEY from 16, CODE from 0 (R36). -/
theorem packResolved_bit (r : Resolved) {b : Nat} (hb : b < 32) :
    (packResolved (some r)).getLsbD b = (decide (b = 31) || (!decide (b < 25) && r.rot.testBit (b - 25))
      || (!decide (b < 16) && r.key.getLsbD (b - 16)) || r.code.getLsbD b) := by
  have hfound : (0x80000000#32).getLsbD b = decide (b = 31) := by
    revert b
    decide
  have h25 : b - 25 < 32 := by omega
  have h16 : b - 16 < 32 := by omega
  simp only [packResolved, BitVec.getLsbD_or, BitVec.getLsbD_shiftLeft, BitVec.getLsbD_ofNat, BitVec.getLsbD_setWidth,
    hfound, hb, h25, h16, decide_true, Bool.true_and]

/-- A ROT of at most 23 does not reach bit 30, and no other field does (R36). -/
theorem packResolved_bit30 {r : Resolved} (hr : r.rot ≤ 23) : (packResolved (some r)).getLsbD 30 = false := by
  have hrot : r.rot.testBit 5 = false := Nat.testBit_lt_two_pow (by omega)
  rw [packResolved_bit r (by decide)]
  simp [hrot]

theorem packResolved_found (r : Resolved) : (packResolved (some r)).getLsbD 31 = true := by
  rw [packResolved_bit r (by decide)]
  simp

theorem packResolved_rot {r : Resolved} (hr : r.rot ≤ 23) :
    ((packResolved (some r)).extractLsb' 25 5).toNat = r.rot := by
  have hfield : (packResolved (some r)).extractLsb' 25 5 = BitVec.ofNat 5 r.rot := by
    apply BitVec.eq_of_getLsbD_eq
    intro i hi
    have hkey : r.key.getLsbD (25 + i - 16) = false := BitVec.getLsbD_of_ge _ _ (by omega)
    have hcode : r.code.getLsbD (25 + i) = false := BitVec.getLsbD_of_ge _ _ (by omega)
    have hne : 25 + i ≠ 31 := by omega
    rw [BitVec.getLsbD_extractLsb', packResolved_bit r (by omega), BitVec.getLsbD_ofNat, hkey, hcode]
    simp [hi, hne]
  rw [hfield, BitVec.toNat_ofNat, Nat.mod_eq_of_lt (by omega)]

theorem packResolved_key (r : Resolved) : (packResolved (some r)).extractLsb' 16 9 = r.key := by
  apply BitVec.eq_of_getLsbD_eq
  intro i hi
  have hcode : r.code.getLsbD (16 + i) = false := BitVec.getLsbD_of_ge _ _ (by omega)
  have hne : 16 + i ≠ 31 := by omega
  have hrot : 16 + i < 25 := by omega
  rw [BitVec.getLsbD_extractLsb', packResolved_bit r (by omega), hcode]
  simp [hi, hne, hrot]

theorem packResolved_code (r : Resolved) : (packResolved (some r)).extractLsb' 0 16 = r.code := by
  apply BitVec.eq_of_getLsbD_eq
  intro i hi
  have hne : i ≠ 31 := by omega
  have hrot : i < 25 := by omega
  rw [BitVec.getLsbD_extractLsb', Nat.zero_add, packResolved_bit r (by omega)]
  simp [hi, hne, hrot]

/-- DCS_RESULT has no bit 30 (R36). -/
theorem packResolved_reserved {r : Option Resolved} (hr : ∀ x, r = some x → x.rot ≤ 23) :
    packResolved r &&& ~~~regMask .dcsResult = 0#32 := by
  cases r with
  | none => simp [packResolved]
  | some x =>
    rw [andNot_eq_zero_iff]
    intro b hb hm
    rw [dcsResult_reservedBit b hb hm]
    exact packResolved_bit30 (hr x rfl)

/-- Settles O53: each field of the word is read off its bits; ROT fits its five bits because a search rotates at most
23 times. -/
theorem resolvedWordHasItsFields : Obligations.ResolvedWordHasItsFields := by
  refine ⟨rfl, fun p la raw r h => ?_⟩
  have hrot := resolve_rot_le h
  exact ⟨packResolved_found r, packResolved_bit30 hrot, packResolved_rot hrot, packResolved_key r, packResolved_code r⟩

end Sys2Proof.Machine
end

section
/-! SUPPORT. What each STATUS update leaves of the legal form of STATUS (R28, R136), and the STATUS write (R146). -/

namespace Sys2Proof.Machine

/-! STATUS words (R28, R136). -/

/-- The legal form of a STATUS word: reserved bits 0, LAST_ERR at most 5, LAST_OP at most 0xA (R28, R136). -/
def statusLegal (st : Word) : Prop :=
  st &&& ~~~regMask .status = 0#32 ∧ (st.extractLsb' 8 4).toNat ≤ 5 ∧ (st.extractLsb' 12 4).toNat ≤ 0xA

theorem statusLegal_of_inv {s : State} (h : s.Inv) : statusLegal s.status := by
  obtain ⟨_, ⟨_, hres, _⟩, hcodes, _, _⟩ := h
  exact ⟨hres, hcodes⟩

/-- The reserved bits of a legal STATUS word, one by one. -/
theorem statusReserved_iff (st : Word) :
    st &&& ~~~regMask .status = 0#32 ↔ ∀ b, b < 32 → b = 7 ∨ 16 ≤ b → st.getLsbD b = false := by
  rw [andNot_eq_zero_iff]
  exact forall₂_congr fun b hb => by rw [status_reservedBit_iff b hb]

theorem extractLsb'_congr {st st' : Word} {start len : Nat}
    (h : ∀ i, i < len → st'.getLsbD (start + i) = st.getLsbD (start + i)) :
    st'.extractLsb' start len = st.extractLsb' start len := by
  apply BitVec.eq_of_getLsbD_eq
  intro i hi
  rw [BitVec.getLsbD_extractLsb', BitVec.getLsbD_extractLsb', h i hi]

/-- The legal form looks at bit 7 and the bits from 8 on only. -/
theorem statusLegal_congr {st st' : Word} (h : statusLegal st)
    (hbits : ∀ b, 7 ≤ b → st'.getLsbD b = st.getLsbD b) : statusLegal st' := by
  obtain ⟨hres, herr, hop⟩ := h
  rw [statusReserved_iff] at hres
  refine ⟨?_, ?_, ?_⟩
  · rw [statusReserved_iff]
    intro b hb hr
    rw [hbits b (by omega)]
    exact hres b hb hr
  · rw [extractLsb'_congr fun i _ => hbits (8 + i) (by omega)]
    exact herr
  · rw [extractLsb'_congr fun i _ => hbits (12 + i) (by omega)]
    exact hop

theorem statusLegal_cleared {st : Word} (v : Word) (h : statusLegal st) : statusLegal (statusCleared v st) := by
  refine statusLegal_congr h fun b hb => ?_
  have hw1c : ¬ (1 ≤ b ∧ b ≤ 6) := by omega
  simp [statusCleared_bit, hw1c]

theorem statusLegal_accepted {st : Word} (h : statusLegal st) : statusLegal (statusAccepted st) := by
  refine statusLegal_congr h fun b hb => ?_
  have h0 : b ≠ 0 := by omega
  have h1 : b ≠ 1 := by omega
  simp [statusAccepted_bit, h0, h1]

/-- The sticky error bits lie below bit 7 (R136). -/
theorem EngineError.mask_bit_high (e : EngineError) {b : Nat} (h : 7 ≤ b) : e.mask.getLsbD b = false := by
  rcases Nat.lt_or_ge b 32 with hb | hb
  · cases e <;> revert b <;> decide
  · exact BitVec.getLsbD_of_ge _ _ hb

theorem EngineError.code_le (e : EngineError) : e.code.toNat ≤ 5 := by
  cases e <;> decide

/-- An error leaves its own code in LAST_ERR, and LAST_OP and the reserved bits as they were (R137). -/
theorem statusLegal_raised {st : Word} (e : EngineError) (h : statusLegal st) : statusLegal (statusRaised e st) := by
  obtain ⟨hres, _, hop⟩ := h
  rw [statusReserved_iff] at hres
  have hkeep : ∀ b, b = 7 ∨ 12 ≤ b → (statusRaised e st).getLsbD b = st.getLsbD b := fun b hb =>
    statusRaised_bit_other e st b (e.mask_bit_high (by omega)) (by omega)
  refine ⟨?_, ?_, ?_⟩
  · rw [statusReserved_iff]
    intro b hb hr
    rw [hkeep b (by omega)]
    exact hres b hb hr
  · rw [statusRaised_code]
    exact e.code_le
  · rw [extractLsb'_congr fun i _ => hkeep (12 + i) (by omega)]
    exact hop

theorem opcode_toNat_le (c : Command) : c.opcode.toNat ≤ 0xA := by
  cases c <;> simp [Command.opcode]

/-- A completion leaves its opcode in LAST_OP, and LAST_ERR and the reserved bits as they were (R122). -/
theorem statusLegal_completed {st : Word} (c : Command) (h : statusLegal st) :
    statusLegal (statusCompleted c.opcode st) := by
  obtain ⟨hres, herr, _⟩ := h
  obtain ⟨_, _, hopcode, hkeep⟩ := completedStatus_of c.opcode st
  rw [statusReserved_iff] at hres
  refine ⟨?_, ?_, ?_⟩
  · rw [statusReserved_iff]
    intro b hb hr
    rw [hkeep b (by omega)]
    exact hres b hb hr
  · rw [extractLsb'_congr fun i hi => hkeep (8 + i) (by omega)]
    exact herr
  · rw [hopcode]
    exact opcode_toNat_le c

/-- The word offset 2 is STATUS on every hardware (R25). -/
theorem busTarget_status : busTarget 2#13 = some (.reg .status) := rfl

/-- A write of STATUS is the W1C write, in both modes (R146). -/
theorem exec_write_status (s : State) (v : Word) : exec (.write 2#13 v) s = .next (s.clearStatus v) := by
  show execWrite 2#13 v s = _
  rw [execWrite, busTarget_status]
  rfl

/-- Settles O12: the write is `clearStatus`, whose STATUS is known bit by bit. -/
theorem statusWriteClearsWrittenOnes : Obligations.StatusWriteClearsWrittenOnes := fun s v =>
  ⟨statusCleared v s.status, statusCleared_bit v s.status, exec_write_status s v⟩

end Sys2Proof.Machine
end

section
/-! SUPPORT. The invariant, one lemma per operation that keeps it: the host's updates, the errors, acceptance, the
commits and the completion (R25, R28, R58, R121, R122); then every step. -/

namespace Sys2Proof.Machine

/-! Updates of one field. -/

/-- The invariant does not look at the moves still to come. -/
theorem State.Inv.setAgenda {s : State} (h : s.Inv) (l : List Event) : State.Inv { s with agenda := l } :=
  ⟨h.memory, h.reserved, h.codes, h.wave, h.ready⟩

/-- A STATUS in its legal form keeps the invariant, if a pending command that it shows is ready. -/
theorem State.Inv.setStatus {s : State} (h : s.Inv) {st : Word} (hst : statusLegal st)
    (hready : st.getLsbD 0 = true → commandReady s.pending s) : State.Inv { s with status := st } := by
  obtain ⟨hctrl, _, htone, hidx, hres, hraw⟩ := h.reserved
  obtain ⟨hbits, hcodes⟩ := hst
  exact ⟨h.memory, ⟨hctrl, hbits, htone, hidx, hres, hraw⟩, hcodes, h.wave, hready⟩

theorem State.Inv.raise {s : State} (h : s.Inv) (e : EngineError) : (s.raise e).Inv :=
  h.setStatus (statusLegal_raised e (statusLegal_of_inv h)) fun hb => h.ready ((s.raise_busy e).symm.trans hb)

theorem State.Inv.clearStatus {s : State} (h : s.Inv) (v : Word) : (s.clearStatus v).Inv :=
  h.setStatus (statusLegal_cleared v (statusLegal_of_inv h)) fun hb => h.ready ((s.clearStatus_busy v).symm.trans hb)

theorem State.Inv.refusedRead {s : State} (h : s.Inv) : s.refusedRead.Inv := by
  obtain ⟨hmem, hres, hcodes, hwave, hready⟩ := h.raise .address
  exact ⟨hmem, hres, hcodes, hwave, hready⟩

theorem State.Inv.refusedAccess {s : State} (h : s.Inv) (we : Bool) : (s.refusedAccess we).Inv := by
  cases we
  · exact h.refusedRead
  · exact h.raise .address

theorem State.Inv.readTarget {s : State} (h : s.Inv) (t : Target) : (s.readTarget t).Inv := by
  obtain ⟨v, n, he⟩ := s.readTarget_cases t
  rw [he]
  exact ⟨h.memory, h.reserved, h.codes, h.wave, h.ready⟩

/-- A write of CTRL stores its defined fields only (R27). -/
theorem State.Inv.setCtrl {s : State} (h : s.Inv) (v : Word) : State.Inv { s with ctrl := v &&& ctrlMask } := by
  obtain ⟨_, hrest⟩ := h.reserved
  have hctrl : (v &&& ctrlMask) &&& ~~~regMask .ctrl = 0#32 := by
    rw [regMask, BitVec.and_assoc, BitVec.and_not_self]
    exact BitVec.and_zero
  exact ⟨h.memory, ⟨hctrl, hrest⟩, h.codes, h.wave, h.ready⟩

/-- In mode IDLE a SAMPLE write keeps the invariant: no command is pending (R56). -/
theorem State.Inv.setSample {s : State} (h : s.Inv) (hb : s.busy = false) (j : Nat) (r : BitVec 12) :
    (s.setSample j r).Inv :=
  ⟨Memory.wf_writeWord _ _ h.memory, h.reserved, h.codes, h.wave, fun hb' => absurd hb' (by simp [hb])⟩

/-- In mode IDLE a WAVE write below L keeps the invariant (R57). -/
theorem State.Inv.setWave {s : State} (h : s.Inv) (hb : s.busy = false) {k : Nat} (hk : k < Config.hw.params.waveLen)
    (v : Word) : (s.setWave k v).Inv := by
  refine ⟨Memory.wf_writeWord _ _ h.memory, h.reserved, h.codes, ?_, fun hb' => absurd hb' (by simp [hb])⟩
  intro i hi
  rw [State.setWave_waveValid, BitVec.getLsbD_or, Bool.or_eq_true, BitVec.getLsbD_twoPow, Bool.and_eq_true,
    decide_eq_true_eq, decide_eq_true_eq] at hi
  rcases hi with hold | ⟨_, rfl⟩
  · exact h.wave i hold
  · exact hk

/-! Acceptance (R121). -/

theorem State.Inv.accept {s : State} (h : s.Inv) (c : Command) : (s.accept c).Inv := by
  rcases s.accept_cases c with ⟨_, he | he⟩ | ⟨hready, he⟩
  · rw [he]
    exact h.raise .operand
  · rw [he]
    exact h.raise .incomplete
  · obtain ⟨hctrl, _, hres⟩ := h.reserved
    obtain ⟨hbits, hcodes⟩ := statusLegal_accepted (statusLegal_of_inv h)
    rw [he]
    exact ⟨h.memory, ⟨hctrl, hbits, hres⟩, hcodes, h.wave, fun _ => hready⟩

theorem State.Inv.issue {s : State} (h : s.Inv) (v : Word) : (s.issue v).Inv := by
  rcases s.issue_cases v with ⟨_, he⟩ | ⟨_, _, he⟩ | ⟨_, c, _, he⟩
  · rw [he]
    exact h.raise .busy
  · rw [he]
    exact h.raise .command
  · rw [he]
    exact h.accept c

/-! Transactions (R54, R55). -/

/-- Only entries below L are mapped (R50). -/
theorem busTarget_wave_lt {a : BitVec 13} {k : Nat} (h : busTarget a = some (.wave k)) :
    k < Config.hw.params.waveLen := by
  rcases busTarget_cases a with hn | ⟨r, hr⟩ | ⟨i, hs⟩ | ⟨k', hk', hw⟩ | ⟨j, _, hj⟩
  · rw [h] at hn
    cases hn
  · rw [h] at hr
    cases hr
  · rw [h] at hs
    cases hs
  · rw [h] at hw
    cases hw
    exact hk'
  · rw [h] at hj
    cases hj

theorem State.Inv.writeTarget {s : State} (h : s.Inv) {a : BitVec 13} {t : Target} (ht : busTarget a = some t)
    (v : Word) : (s.writeTarget v t).Inv := by
  rcases s.writeTarget_cases v t with he | he | he | he | he | ⟨he, _⟩ | ⟨hb, he | he | ⟨j, _, he⟩ | ⟨k, rfl, he⟩⟩
  · rw [he]
    exact h
  · rw [he]
    exact h.setCtrl v
  · rw [he]
    exact h.clearStatus v
  · rw [he]
    exact h.issue v
  · rw [he]
    exact ⟨h.memory, h.reserved, h.codes, h.wave, h.ready⟩
  · rw [he]
    exact h.raise .busy
  · rw [he]
    exact ⟨h.memory, h.reserved, h.codes, h.wave, h.ready⟩
  · rw [he]
    exact ⟨h.memory, h.reserved, h.codes, h.wave, h.ready⟩
  · rw [he]
    exact h.setSample hb j _
  · rw [he]
    exact h.setWave hb (busTarget_wave_lt ht) v

theorem exec_transaction_keeps_inv {s t : State} (h : s.Inv) {i : Instr} (hi : isTransaction i)
    (he : exec i s = .next t) : t.Inv := by
  rcases exec_transaction hi s with hx | ⟨tg, hx⟩ | hx | ⟨a, v, tg, htg, hx⟩
  · rw [hx] at he
    cases he
    exact h.refusedRead
  · rw [hx] at he
    cases he
    exact h.readTarget tg
  · rw [hx] at he
    cases he
    exact h.raise .address
  · rw [hx] at he
    cases he
    exact h.writeTarget htg v

/-! Completions (R122). -/

/-- The store of the outputs below L sets valid bits below L only (R91). -/
theorem storeWave_waveInRange {s : State} (h : waveInRange s) (x : Nat → Int) :
    waveInRange (storeWave x Config.hw.params.waveLen s) := by
  intro k hk
  rw [storeWave_valid x s (waveLen_bounds Config.hw.ok).2, Bool.or_eq_true, decide_eq_true_eq] at hk
  rcases hk with hold | hnew
  · exact h k hold
  · exact hnew

/-- Every commit keeps the memory's canonical form: FILTER, DCS and RUN store the outputs, the others nothing. -/
theorem commitOf_mem_wf (c : Command) {s : State} (h : s.mem.wf = true) : (commitOf c s).mem.wf = true := by
  cases c with
  | run | dcs | filter => exact storeWave_wf _ _ h
  | nop | classify | score _ | recover | resolve | golayEnc | golayChk | clrblk => exact h

/-- Every commit leaves valid WAVE entries below L only: FILTER, DCS and RUN set those below L, CLRBLK clears all. -/
theorem commitOf_waveInRange (c : Command) {s : State} (h : waveInRange s) : waveInRange (commitOf c s) := by
  cases c with
  | run | dcs | filter => exact storeWave_waveInRange h _
  | clrblk =>
    intro k hk
    simp [commitOf] at hk
  | nop | classify | score _ | recover | resolve | golayEnc | golayChk => exact h

/-- TONE_RESULT and TONE_MAXIDX after a classification have no reserved bit (R32, R35). -/
theorem commitTone_reserved (p : Config.Params) (s : State) :
    (commitTone p s).toneResult &&& ~~~regMask .toneResult = 0#32
      ∧ (commitTone p s).toneMaxIdx &&& ~~~regMask .toneMaxIdx = 0#32 := by
  have hidx : (scanScores (toneScores p s.block)).idx < 64 := lt_trans (scanScores_idx_lt _) (by decide)
  refine ⟨packTone_reserved fun k hk => ?_, toneMaxIdx_reserved hidx⟩
  rw [scanDecision_eq_some hk]
  exact hidx

/-- The chain resolves by the search of R114 (R125). -/
theorem chainResolved_rot_le {p : Config.Params} {la : Bool} {raw : Option (BitVec 23)} {r : Resolved}
    (h : chainResolved p la raw = some r) : r.rot ≤ 23 := by
  obtain ⟨_, _, hr⟩ := Option.bind_eq_some_iff.1 h
  exact resolve_rot_le hr

/-- DCS_RESULT and DCS_RAW after the DCS chain have no reserved bit (R36, R37). -/
theorem commitChain_reserved (p : Config.Params) (s : State) :
    (commitChain p s).dcsResult &&& ~~~regMask .dcsResult = 0#32
      ∧ (commitChain p s).dcsRaw &&& ~~~regMask .dcsRaw = 0#32 :=
  ⟨packResolved_reserved fun _ hr => chainResolved_rot_le hr, packRaw_reserved _⟩

/-- Every commit writes words without reserved bits to the registers that have some (R124). -/
theorem commitOf_reserved (c : Command) {s : State} (h : reservedClear s) : reservedClear (commitOf c s) := by
  obtain ⟨hctrl, hstatus, htone, hidx, hres, hraw⟩ := h
  obtain ⟨htone', hidx'⟩ := commitTone_reserved Config.hw.params s
  obtain ⟨hres', hraw'⟩ := commitChain_reserved Config.hw.params s
  rw [commitOf_frame]
  cases c with
  | run => exact ⟨hctrl, hstatus, htone', hidx', hres', hraw'⟩
  | classify => exact ⟨hctrl, hstatus, htone', hidx', hres, hraw⟩
  | dcs =>
    simp only [commitOf, commitDcs, commitChain, commitFir_eq]
    exact ⟨hctrl, hstatus, htone, hidx, hres', hraw'⟩
  | filter =>
    simp only [commitOf, commitFilter, commitFir_eq]
    exact ⟨hctrl, hstatus, htone, hidx, hres, hraw⟩
  | recover => exact ⟨hctrl, hstatus, htone, hidx, hres, packRaw_reserved _⟩
  | nop | score _ | resolve | golayEnc | golayChk | clrblk => exact ⟨hctrl, hstatus, htone, hidx, hres, hraw⟩

/-- A completion keeps the invariant, whatever the command: it leaves mode IDLE, where no command is pending. -/
theorem completion_keeps_inv {s : State} (h : s.Inv) (c : Command) : ((commitOf c s).finish c).Inv := by
  have hstatus : (commitOf c s).status = s.status := by rw [commitOf_frame]
  obtain ⟨hctrl, _, hrest⟩ := commitOf_reserved c h.reserved
  obtain ⟨hbits, hcodes⟩ : statusLegal ((commitOf c s).finish c).status := by
    rw [State.finish_status, hstatus]
    exact statusLegal_completed c (statusLegal_of_inv h)
  exact ⟨commitOf_mem_wf c h.memory, ⟨hctrl, hbits, hrest⟩, hcodes, commitOf_waveInRange c h.wave,
    fun hb => absurd hb (by simp)⟩

/-! The reset pulse (R157) and the step. -/

/-- The reset pulse leads to the invariant from any state: nothing is stored, valid or pending (R157). -/
theorem State.resetPulse_inv (s : State) : s.resetPulse.Inv := by
  refine ⟨rfl, ?_, ?_, ?_, ?_⟩
  · simp [reservedClear, State.resetPulse, State.reset, regMask, ctrlMask]
  · simp [codesLegal, State.lastErr, State.lastOp, State.resetPulse, State.reset]
  · intro k hk
    simp [State.resetPulse, State.reset] at hk
  · intro hb
    simp [State.busy, State.resetPulse, State.reset] at hb

/-- One step keeps the invariant: each of the five things a step can do does. -/
theorem step_keeps_inv {s t : State} (h : s.Inv) (hstep : step s = .next t) : t.Inv := by
  rcases step_cases hstep with ⟨rest, _, rfl⟩ | ⟨rest, _, ⟨_, rfl⟩ | ⟨hb, he⟩⟩ | ⟨w, rest, _, rfl⟩
    | ⟨i, rest, _, hi, he⟩ | ⟨we, _, _, _, rest, _, _, rfl⟩
  · exact State.resetPulse_inv _
  · exact h.setAgenda rest
  · obtain ⟨_, rfl⟩ := exec_pending_next (s := { s with agenda := rest }) hb he
    exact completion_keeps_inv (h.setAgenda rest) s.pending
  · exact (h.setAgenda rest).issue w
  · exact exec_transaction_keeps_inv (h.setAgenda rest) hi he
  · exact (h.setAgenda rest).refusedAccess we

/-- Settles O55, by the inversion of the step and one lemma for each operation it can be. -/
theorem everyStepKeepsTheInvariant : Obligations.EveryStepKeepsTheInvariant := fun _ _ h hstep =>
  step_keeps_inv h hstep

end Sys2Proof.Machine
end

section
/-! SUPPORT. The host's side of the machine: the address map of R50 as one equation per kind of target, READ and WRITE of
a mapped and of an unmapped word (R53 to R55), what a refusal records (R137), and what a window write stores (R56,
R57). -/

namespace Sys2Proof.Machine

/-! The address map (R50). The windows are `busTarget_sample` and `busTarget_wave`. -/

/-- The word offset of a register names it (R25). -/
theorem busTarget_reg (r : Reg) : busTarget (BitVec.ofNat 13 (regOffset r / 4)) = some (.reg r) := by
  cases r <;> rfl

/-- The word offset of a SCORE register names it (R40). -/
theorem busTarget_score (k : Fin 50) : busTarget (BitVec.ofNat 13 (16 + k.val)) = some (.score k) := by
  have hoff : byteOffset (BitVec.ofNat 13 (16 + k.val)) = 0x40 + 4 * k.val := by
    rw [byteOffset, BitVec.toNat_ofNat]
    omega
  rw [busTarget, hoff, targetOf_score (by omega) (by omega)]
  congr 3
  omega

/-- Outside the register block and the two windows nothing is mapped (R53). -/
theorem busTarget_unmapped {a : BitVec 13}
    (h : ¬ (4 * a.toNat < 0x108
      ∨ (0x1000 ≤ 4 * a.toNat ∧ 4 * a.toNat < 0x1000 + 4 * Config.hw.params.waveLen)
      ∨ (0x4000 ≤ 4 * a.toNat ∧ 4 * a.toNat < 0x4000 + 4 * 4000))) : busTarget a = none := by
  obtain ⟨hregs, hwave, hsample⟩ : _ ∧ _ ∧ _ := by simpa only [not_or] using h
  exact targetOf_none (Nat.not_lt.1 hregs) hwave hsample

/-! READ and WRITE (R53, R54, R55). -/

theorem exec_read_mapped {a : BitVec 13} {t : Target} (h : busTarget a = some t) (s : State) :
    exec (.read a) s = .next (s.readTarget t) := by
  show execRead a s = _
  rw [execRead, h]

theorem exec_read_unmapped {a : BitVec 13} (h : busTarget a = none) (s : State) :
    exec (.read a) s = .next s.refusedRead := by
  show execRead a s = _
  rw [execRead, h]

theorem exec_write_mapped {a : BitVec 13} {t : Target} (h : busTarget a = some t) (v : Word) (s : State) :
    exec (.write a v) s = .next (s.writeTarget v t) := by
  show execWrite a v s = _
  rw [execWrite, h]

theorem exec_write_unmapped {a : BitVec 13} (h : busTarget a = none) (v : Word) (s : State) :
    exec (.write a v) s = .next (s.raise .address) := by
  show execWrite a v s = _
  rw [execWrite, h]

/-! What a refusal records (R137). -/

theorem refusedWith_busy (s : State) : refusedWith 1#4 2 s (.next (s.raise .busy)) :=
  ⟨_, raisedStatus_busy s.status, rfl⟩

theorem refusedWith_command (s : State) : refusedWith 2#4 3 s (.next (s.raise .command)) :=
  ⟨_, raisedStatus_command s.status, rfl⟩

theorem refusedWith_address (s : State) : refusedWith 5#4 6 s (.next (s.raise .address)) :=
  ⟨_, raisedStatus_address s.status, rfl⟩

/-- A refused read also gives the host the value 0 (R53). -/
theorem refusedWith_refusedRead (s : State) : refusedWith 5#4 6 { s with busData := 0#32 } (.next s.refusedRead) :=
  ⟨_, raisedStatus_address s.status, rfl⟩

/-! What a window write stores (R56, R57). -/

/-- Setting one valid bit sets that bit and no other. -/
theorem getLsbD_or_twoPow {w i : Nat} (x : BitVec w) (j : Nat) (hi : i < w) :
    (x ||| BitVec.twoPow w j).getLsbD i = (x.getLsbD i || decide (i = j)) := by
  rw [BitVec.getLsbD_or, BitVec.getLsbD_twoPow]
  simp only [eq_comm (a := j)]
  by_cases hij : i = j
  · simp [← hij, hi]
  · simp [hij]

/-- A SAMPLE entry reads back as its 12 bits (R56). -/
theorem State.setSample_sampleRaw {s : State} (h : s.mem.wf = true) (j : Nat) (r : BitVec 12) :
    (s.setSample j r).sampleRaw j = r := by
  rw [State.sampleRaw, State.setSample_mem, Memory.readWord_writeWord_self _ _ h,
    BitVec.setWidth_setWidth_of_le _ (by decide), BitVec.setWidth_eq]

/-- A WAVE entry reads back as the signed value of its word (R57). -/
theorem State.setWave_waveValue {s : State} (h : s.mem.wf = true) (k : Nat) (v : Word) :
    (s.setWave k v).waveValue k = v.toInt := by
  rw [State.waveValue, State.setWave_mem, Memory.readWord_writeWord_self _ _ h]

/-- In mode IDLE a WRITE of a SAMPLE entry stores the low 12 bits (R56). -/
theorem exec_write_sample {s : State} (hb : s.busy = false) {j : Nat} (hj : j < 4000) (v : Word) :
    exec (.write (BitVec.ofNat 13 (sampleOffset j / 4)) v) s = .next (s.setSample j (v.setWidth 12)) := by
  rw [exec_write_mapped (busTarget_sample hj), State.writeTarget, hb]
  rfl

/-- In mode IDLE a WRITE of a WAVE entry stores the word (R57). -/
theorem exec_write_wave {s : State} (hb : s.busy = false) {k : Nat} (hk : k < Config.hw.params.waveLen) (v : Word) :
    exec (.write (BitVec.ofNat 13 (waveOffset k / 4)) v) s = .next (s.setWave k v) := by
  rw [exec_write_mapped (busTarget_wave hk), State.writeTarget, hb]
  rfl

/-! What a host write and a host read of a register do (R25, R55), and a host read of the WAVE window (R54, R57). -/

theorem State.writeTarget_peakLow {s : State} (hb : s.busy = false) (v : Word) :
    s.writeTarget v (.reg .peakLow) = { s with peakLow := v } := by
  simp [State.writeTarget, hb]

theorem State.writeTarget_peakHigh {s : State} (hb : s.busy = false) (v : Word) :
    s.writeTarget v (.reg .peakHigh) = { s with peakHigh := v } := by
  simp [State.writeTarget, hb]

/-- The registers that a host write does not change in either mode (R55, R162). -/
def readOnlyRegs : List Reg :=
  [.id, .result, .toneResult, .toneMax, .toneAvg, .toneMaxIdx, .dcsResult, .dcsRaw, .idleTimeout, .sweepPhase]

theorem State.writeTarget_readOnly {r : Reg} (hr : r ∈ readOnlyRegs) (s : State) (v : Word) :
    s.writeTarget v (.reg r) = s := by
  cases r with
  | ctrl | status | cmd | arg | peakLow | peakHigh => simp [readOnlyRegs] at hr
  | id | result | toneResult | toneMax | toneAvg | toneMaxIdx | dcsResult | dcsRaw | idleTimeout | sweepPhase => rfl

/-- The mask of a register without reserved bits keeps every bit (R25). -/
theorem and_fullMask (w : Word) : w &&& 0xFFFFFFFF#32 = w := BitVec.and_allOnes

theorem exec_read_reg (r : Reg) (s : State) :
    exec (.read (BitVec.ofNat 13 (regOffset r / 4))) s = .next { s with busData := s.regRead r } :=
  exec_read_mapped (busTarget_reg r) s

/-- A WAVE read is a draw while FILTER, DCS or RUN runs, and at no other time (R54). -/
theorem State.waveIsDraw_iff (s : State) :
    s.waveIsDraw = true ↔ s.busy = true ∧ (s.pending = .filter ∨ s.pending = .dcs ∨ s.pending = .run) := by
  rw [State.waveIsDraw, Bool.and_eq_true]
  cases s.pending <;> simp [writesWave]

/-- The read format of a WAVE entry, by its signed value (R57). -/
theorem State.waveRead_eq (s : State) (k : Nat) :
    s.waveRead k = if s.waveValid.getLsbD k then BitVec.ofInt 32 (s.waveValue k) else 0#32 := by
  rw [State.waveRead, State.waveValue, BitVec.ofInt_toInt]

theorem State.readTarget_wave_stored {s : State} (h : s.waveIsDraw = false) (k : Nat) :
    s.readTarget (.wave k) = { s with busData := s.waveRead k } := by
  simp [State.readTarget, h]

theorem State.readTarget_wave_draw {s : State} (h : s.waveIsDraw = true) (k : Nat) :
    s.readTarget (.wave k) = { s with busData := Config.waveDraw s.draws, draws := s.draws + 1 } := by
  simp [State.readTarget, h]

/-! Where a step finds the host's move (R52, R59). -/

theorem step_of_run {s t : State} {i : Instr} (h : fetch s = .run i t) : step s = exec i t := by
  rw [step, h]

theorem step_of_done {s t : State} (h : fetch s = .done t) : step s = .next t := by
  rw [step, h]

theorem fetch_word {s : State} {e : Encoded} {rest : List Event} (h : s.agenda = .word e :: rest) :
    fetch s = wordMove e { s with agenda := rest } := by
  rw [fetch, h]

theorem fetch_access {s : State} {we : Bool} {off : BitVec 15} {size : Nat} {v : Word} {rest : List Event}
    (h : s.agenda = .access we off size v :: rest) :
    fetch s = accessMove we off size v { s with agenda := rest } := by
  rw [fetch, h]

/-- A word that decodes is run; a CMD word in mode IDLE only (R121, R138). -/
theorem wordMove_of_decode {e : Encoded} {i : Instr} {s : State} (hd : decode e = .ok i)
    (hidle : (∃ w, e = .cmd w) → s.busy = false) : wordMove e s = .run i s := by
  cases e with
  | cmd w => simp [wordMove, hidle ⟨w, rfl⟩, hd]
  | bus r => simp [wordMove, hd]

/-- An illegal CMD word in mode IDLE (R139). -/
theorem wordMove_illegal {w : Word} {err : DecodeError} {s : State} (hd : decode (.cmd w) = .error err)
    (hb : s.busy = false) : wordMove (.cmd w) s = .done (s.raise .command) := by
  simp [wordMove, hb, hd]

/-- Any CMD word while BUSY (R138). -/
theorem wordMove_busy {s : State} (hb : s.busy = true) (w : Word) : wordMove (.cmd w) s = .done (s.raise .busy) := by
  simp [wordMove, hb]

theorem admitted_iff (off : BitVec 15) (size : Nat) : admitted off size = true ↔ off.toNat % 4 = 0 ∧ size = 4 :=
  decide_eq_true_iff

theorem accessMove_admitted {off : BitVec 15} {size : Nat} (h : admitted off size = true) (we : Bool) (v : Word)
    (s : State) : accessMove we off size v s = .run (accessInstr we off v) s := by
  rw [accessMove, if_pos h]

theorem accessMove_refused {off : BitVec 15} {size : Nat} (h : ¬ admitted off size = true) (we : Bool) (v : Word)
    (s : State) : accessMove we off size v s = .done (s.refusedAccess we) := by
  rw [accessMove, if_neg h]

/-- The word offset of an aligned byte offset is a quarter of it (R66). -/
theorem four_mul_wordOffset {off : BitVec 15} (h : off.toNat % 4 = 0) :
    4 * (off.extractLsb' 2 13).toNat = off.toNat := by
  have hlt := off.isLt
  rw [BitVec.extractLsb'_toNat, Nat.shiftRight_eq_div_pow]
  omega

end Sys2Proof.Machine
end

section
/-! SUPPORT. The statements about host transactions and the moves of the host: a READ's value, what a WRITE stores, the refused
accesses, and the step that runs them. -/

namespace Sys2Proof.Machine

/-- The registers of R25, in the order of their offsets. -/
def allRegs : List Reg :=
  [.id, .ctrl, .status, .cmd, .arg, .result, .toneResult, .toneMax, .toneAvg, .toneMaxIdx, .dcsResult, .dcsRaw,
    .peakLow, .peakHigh, .idleTimeout, .sweepPhase]

/-- Settles O25: the address map names the target, and the read of each kind of target is known. -/
theorem readReturnsTheWord : Obligations.ReadReturnsTheWord := by
  intro s
  refine ⟨?_, fun k => ?_, fun j hj => exec_read_mapped (busTarget_sample hj) s,
    fun k hk => ⟨fun hfree => ?_, fun hdraw => ?_⟩⟩
  · intro e he
    have hmem : e ∈ allRegs.map fun r => (regOffset r, s.regRead r) := by
      simpa [allRegs, regOffset, State.regRead, State.regStored, regMask, ctrlMask, statusMask, and_fullMask] using he
    obtain ⟨r, _, rfl⟩ := List.mem_map.1 hmem
    exact exec_read_reg r s
  · have hoff : (0x40 + 4 * k.val) / 4 = 16 + k.val := by omega
    rw [hoff]
    exact exec_read_mapped (busTarget_score k) s
  · rw [← State.waveIsDraw_iff, Bool.not_eq_true] at hfree
    rw [← State.waveRead_eq, ← State.readTarget_wave_stored hfree]
    exact exec_read_mapped (busTarget_wave hk) s
  · rw [← State.waveIsDraw_iff] at hdraw
    refine ⟨Config.waveDraw s.draws, ?_⟩
    rw [← State.readTarget_wave_draw hdraw k]
    exact exec_read_mapped (busTarget_wave hk) s

/-- Settles O27: in mode IDLE the write is `setSample` or `setWave`, which store the word and set one valid bit. -/
theorem windowWriteStoresTheEntry : Obligations.WindowWriteStoresTheEntry := fun s v hb hwf =>
  ⟨fun j hj => ⟨s.setSample j (v.setWidth 12), exec_write_sample hb hj v, rfl,
      State.setSample_sampleRaw hwf j _, fun _ hi => getLsbD_or_twoPow s.sampleValid j hi,
      fun _ ha => Memory.readByte_writeWord_outside s.mem _ ha⟩,
    fun k hk => ⟨s.setWave k v, exec_write_wave hb hk v, rfl,
      State.setWave_waveValue hwf k v, fun _ hi => getLsbD_or_twoPow s.waveValid k hi,
      fun _ ha => Memory.readByte_writeWord_outside s.mem _ ha⟩⟩

/-- Settles O5: a word that decodes is run, and each of the two refused CMD words records its error. -/
theorem stepRunsThePresentedWord : Obligations.StepRunsThePresentedWord := by
  intro s e rest hagenda
  refine ⟨fun i hd hidle => ?_, ?_, ?_⟩
  · exact step_of_run ((fetch_word hagenda).trans (wordMove_of_decode hd hidle))
  · rintro err hd ⟨w, rfl⟩ hb
    rw [step_of_done ((fetch_word hagenda).trans (wordMove_illegal hd hb))]
    exact refusedWith_command _
  · rintro ⟨w, rfl⟩ hb
    rw [step_of_done ((fetch_word hagenda).trans (wordMove_busy (s := { s with agenda := rest }) hb w))]
    exact refusedWith_busy _

/-- Settles O7: an admitted access is the transaction at a quarter of its offset, any other one is refused. -/
theorem rawAccessIsAdmittedOrRefused : Obligations.RawAccessIsAdmittedOrRefused := by
  intro s we off size v rest hagenda
  rw [← admitted_iff]
  refine ⟨fun hadm => ⟨off.extractLsb' 2 13, ?_, ?_⟩, fun hadm => ?_⟩
  · exact four_mul_wordOffset ((admitted_iff off size).1 hadm).1
  · exact step_of_run ((fetch_access hagenda).trans (accessMove_admitted hadm we v _))
  · rw [step_of_done ((fetch_access hagenda).trans (accessMove_refused hadm we v _))]
    constructor
    · rintro rfl
      exact refusedWith_address _
    · rintro rfl
      exact refusedWith_refusedRead { s with agenda := rest }

/-- Settles O11: nothing is mapped there, so both transactions are refused in either mode. -/
theorem unmappedAccessRaisesAddressError : Obligations.UnmappedAccessRaisesAddressError := by
  intro s a v hout
  have hnone := busTarget_unmapped hout
  rw [exec_write_unmapped hnone, exec_read_unmapped hnone]
  exact ⟨refusedWith_address s, refusedWith_refusedRead s⟩

/-- Settles O26: the address map names the register, and the write of each register is known. -/
theorem registerWriteStoresTheFields : Obligations.RegisterWriteStoresTheFields := by
  intro s v
  refine ⟨exec_write_mapped (busTarget_reg .ctrl) v s, exec_write_mapped (busTarget_reg .arg) v s, fun hb => ⟨?_, ?_⟩,
    fun n hn => ?_, fun k hk => exec_write_mapped (busTarget_score ⟨k, hk⟩) v s⟩
  · rw [← State.writeTarget_peakLow hb]
    exact exec_write_mapped (busTarget_reg .peakLow) v s
  · rw [← State.writeTarget_peakHigh hb]
    exact exec_write_mapped (busTarget_reg .peakHigh) v s
  · have hmem : n ∈ readOnlyRegs.map fun r => regOffset r / 4 := hn
    obtain ⟨r, hr, rfl⟩ := List.mem_map.1 hmem
    rw [exec_write_mapped (busTarget_reg r), State.writeTarget_readOnly hr]

end Sys2Proof.Machine
end

section
/-! SUPPORT. The decoder and the encoder of both formats (R64 to R70): the fields of an encoded word, the word its
fields make up, the cases of R69, and that exactly the encodings decode. -/

namespace Sys2Proof

/-! The fields of a CMD word (R65). -/

@[simp] theorem cmdOp_encodeCommand (c : Command) : cmdOp (encodeCommand c) = c.opcode :=
  BitVec.extractLsb'_append_eq_right

@[simp] theorem cmdRsv0_encodeCommand (c : Command) : cmdRsv0 (encodeCommand c) = 0#4 :=
  (BitVec.extractLsb'_append_eq_of_le (by decide)).trans BitVec.extractLsb'_append_eq_right

@[simp] theorem cmdArg8_encodeCommand (c : Command) : cmdArg8 (encodeCommand c) = c.arg8 :=
  (BitVec.extractLsb'_append_eq_of_le (by decide)).trans <|
    (BitVec.extractLsb'_append_eq_of_le (by decide)).trans BitVec.extractLsb'_append_eq_right

@[simp] theorem cmdRsv1_encodeCommand (c : Command) : cmdRsv1 (encodeCommand c) = 0#16 :=
  (BitVec.extractLsb'_append_eq_of_le (by decide)).trans <|
    (BitVec.extractLsb'_append_eq_of_le (by decide)).trans BitVec.extractLsb'_append_eq_left

/-- A CMD word is its four fields side by side. -/
theorem cmdFields_append (w : Word) : cmdRsv1 w ++ cmdArg8 w ++ cmdRsv0 w ++ cmdOp w = w := by
  rw [cmdRsv1, cmdArg8, cmdRsv0, cmdOp, BitVec.extractLsb'_append_extractLsb'_eq_extractLsb' (by decide),
    BitVec.extractLsb'_append_extractLsb'_eq_extractLsb' (by decide),
    BitVec.extractLsb'_append_extractLsb'_eq_extractLsb' (by decide)]
  exact BitVec.extractLsb'_eq_self

/-- A word is the encoding of a command exactly when its fields are the command's. -/
theorem encodeCommand_eq_iff (c : Command) (w : Word) :
    encodeCommand c = w ↔ cmdRsv1 w = 0#16 ∧ cmdRsv0 w = 0#4 ∧ cmdOp w = c.opcode ∧ cmdArg8 w = c.arg8 := by
  constructor
  · rintro rfl
    simp
  · rintro ⟨hrsv1, hrsv0, hop, harg⟩
    rw [← cmdFields_append w, hrsv1, hrsv0, hop, harg, encodeCommand]

/-! The command an opcode names (R68). -/

/-- What OP names: no command from 0xB on; below, the command of that opcode, where SCORE takes its operand from ARG8. -/
theorem commandOf_cases (op : BitVec 4) (a : BitVec 8) :
    (0xB ≤ op.toNat ∧ commandOf op a = none)
    ∨ ∃ c, op.toNat ≤ 0xA ∧ commandOf op a = some c ∧ c.opcode = op ∧ (op = 0x4#4 → c.arg8 = a) := by
  rw [commandOf]
  -- The fifth arm is SCORE's, the twelfth is that of the reserved opcodes.
  split
  case h_12 => exact .inl ⟨by simp only [imp_false] at *; omega, rfl⟩
  case h_5 hop => exact .inr ⟨_, by omega, rfl, BitVec.eq_of_toNat_eq hop.symm, fun _ => rfl⟩
  all_goals
    rename_i hop
    exact .inr ⟨_, by omega, rfl, BitVec.eq_of_toNat_eq hop.symm, fun h4 => absurd (h4 ▸ hop) (by decide)⟩

theorem commandOf_eq_none {op : BitVec 4} (hop : 0xB ≤ op.toNat) (a : BitVec 8) : commandOf op a = none := by
  rcases commandOf_cases op a with ⟨_, h⟩ | ⟨c, hle, _⟩
  · exact h
  · omega

/-- An opcode that is not reserved names a command. -/
theorem exists_commandOf {op : BitVec 4} (hop : op.toNat ≤ 0xA) (a : BitVec 8) :
    ∃ c, commandOf op a = some c ∧ c.opcode = op ∧ (op = 0x4#4 → c.arg8 = a) := by
  rcases commandOf_cases op a with ⟨hge, _⟩ | ⟨c, _, h⟩
  · omega
  · exact ⟨c, h⟩

theorem commandOf_opcode (c : Command) : commandOf c.opcode c.arg8 = some c := by
  cases c <;> rfl

/-- Only SCORE has an operand (R65). -/
theorem Command.arg8_eq_zero {c : Command} (h : c.opcode ≠ 0x4#4) : c.arg8 = 0#8 := by
  cases c with
  | score k => exact absurd rfl h
  | nop | run | classify | dcs | filter | recover | resolve | golayEnc | golayChk | clrblk => rfl

/-! The four cases of R69. -/

theorem decodeCommand_reservedField {w : Word} (h : cmdRsv1 w ≠ 0#16 ∨ cmdRsv0 w ≠ 0#4) :
    decodeCommand w = .error .reservedField :=
  if_pos h

theorem decodeCommand_reservedOpcode {w : Word} (hrsv1 : cmdRsv1 w = 0#16) (hrsv0 : cmdRsv0 w = 0#4)
    (hop : 0xB ≤ (cmdOp w).toNat) : decodeCommand w = .error .reservedOpcode :=
  (if_neg (not_or.2 ⟨not_not.2 hrsv1, not_not.2 hrsv0⟩)).trans (by rw [commandOf_eq_none hop])

/-- Where OP names a command, only ARG8 can still make the word illegal. -/
theorem decodeCommand_of_commandOf {w : Word} {c : Command} (hrsv1 : cmdRsv1 w = 0#16) (hrsv0 : cmdRsv0 w = 0#4)
    (hc : commandOf (cmdOp w) (cmdArg8 w) = some c) :
    decodeCommand w = if cmdOp w ≠ 0x4#4 ∧ cmdArg8 w ≠ 0#8 then .error .argNotZero else .ok c :=
  (if_neg (not_or.2 ⟨not_not.2 hrsv1, not_not.2 hrsv0⟩)).trans (by rw [hc])

theorem decodeCommand_argNotZero {w : Word} (hrsv1 : cmdRsv1 w = 0#16) (hrsv0 : cmdRsv0 w = 0#4)
    (hop : (cmdOp w).toNat ≤ 0xA) (hscore : cmdOp w ≠ 0x4#4) (harg : cmdArg8 w ≠ 0#8) :
    decodeCommand w = .error .argNotZero := by
  obtain ⟨c, hc, _⟩ := exists_commandOf hop (cmdArg8 w)
  rw [decodeCommand_of_commandOf hrsv1 hrsv0 hc, if_pos ⟨hscore, harg⟩]

theorem decodeCommand_encodeCommand (c : Command) : decodeCommand (encodeCommand c) = .ok c := by
  have hc : commandOf (cmdOp (encodeCommand c)) (cmdArg8 (encodeCommand c)) = some c := by
    rw [cmdOp_encodeCommand, cmdArg8_encodeCommand, commandOf_opcode]
  rw [decodeCommand_of_commandOf (cmdRsv1_encodeCommand c) (cmdRsv0_encodeCommand c) hc, cmdOp_encodeCommand,
    cmdArg8_encodeCommand, if_neg fun h => h.2 (Command.arg8_eq_zero h.1)]

/-- A word that none of the three rejections of R69 meets is the encoding of a command. -/
theorem exists_encodeCommand {w : Word} (hrsv1 : cmdRsv1 w = 0#16) (hrsv0 : cmdRsv0 w = 0#4)
    (hop : (cmdOp w).toNat ≤ 0xA) (harg : cmdOp w = 0x4#4 ∨ cmdArg8 w = 0#8) : ∃ c, encodeCommand c = w := by
  obtain ⟨c, _, hopcode, hscore⟩ := exists_commandOf hop (cmdArg8 w)
  refine ⟨c, (encodeCommand_eq_iff c w).2 ⟨hrsv1, hrsv0, hopcode.symm, ?_⟩⟩
  by_cases h4 : cmdOp w = 0x4#4
  · exact (hscore h4).symm
  · rw [harg.resolve_left h4, Command.arg8_eq_zero (hopcode ▸ h4)]

/-- A CMD word decodes to a command exactly when it is its encoding: the three rejections leave only encodings. -/
theorem decodeCommand_eq_ok_iff (w : Word) (c : Command) : decodeCommand w = .ok c ↔ encodeCommand c = w := by
  refine ⟨fun h => ?_, fun h => h ▸ decodeCommand_encodeCommand c⟩
  by_cases hrsv : cmdRsv1 w ≠ 0#16 ∨ cmdRsv0 w ≠ 0#4
  · simp [decodeCommand_reservedField hrsv] at h
  obtain ⟨hrsv1, hrsv0⟩ : cmdRsv1 w = 0#16 ∧ cmdRsv0 w = 0#4 := by simpa only [ne_eq, not_or, not_not] using hrsv
  by_cases hop : 0xB ≤ (cmdOp w).toNat
  · simp [decodeCommand_reservedOpcode hrsv1 hrsv0 hop] at h
  have hdefined : (cmdOp w).toNat ≤ 0xA := by omega
  by_cases harg : cmdOp w = 0x4#4 ∨ cmdArg8 w = 0#8
  · obtain ⟨c', rfl⟩ := exists_encodeCommand hrsv1 hrsv0 hdefined harg
    rw [decodeCommand_encodeCommand] at h
    injection h with h
    rw [h]
  · obtain ⟨hscore, hzero⟩ := not_or.1 harg
    simp [decodeCommand_argNotZero hrsv1 hrsv0 hdefined hscore hzero] at h

/-- Two commands with one opcode other than SCORE's are one command. -/
theorem Command.eq_of_opcode_eq {c c' : Command} (h : c.opcode = c'.opcode) (hscore : c.opcode ≠ 0x4#4) : c = c' := by
  have hc : commandOf c.opcode 0#8 = some c := Command.arg8_eq_zero hscore ▸ commandOf_opcode c
  have hc' : commandOf c.opcode 0#8 = some c' := Command.arg8_eq_zero (h ▸ hscore) ▸ h ▸ commandOf_opcode c'
  exact Option.some.inj (hc.symm.trans hc')

/-- Every opcode but SCORE has exactly one word (R69). -/
theorem existsUnique_word_of_opcode {op : BitVec 4} (hop : op.toNat ≤ 0xA) (hscore : op ≠ 0x4#4) :
    ∃! w : Word, ∃ c, decodeCommand w = .ok c ∧ c.opcode = op := by
  obtain ⟨c, _, hopcode, _⟩ := exists_commandOf hop 0#8
  refine ⟨encodeCommand c, ⟨c, decodeCommand_encodeCommand c, hopcode⟩, ?_⟩
  rintro w ⟨c', hc', hopcode'⟩
  obtain rfl : c' = c := Command.eq_of_opcode_eq (hopcode'.trans hopcode.symm) (hopcode' ▸ hscore)
  exact ((decodeCommand_eq_ok_iff w c').1 hc').symm

/-- Every command, with its operand, has exactly one word (R69). -/
theorem existsUnique_word_of_command (c : Command) : ∃! w : Word, decodeCommand w = .ok c :=
  ⟨encodeCommand c, decodeCommand_encodeCommand c, fun w hw => ((decodeCommand_eq_ok_iff w c).1 hw).symm⟩

/-! BUS records (R66). -/

@[simp] theorem busWe_encodeRecord (we : Bool) (a : BitVec 13) (v : Word) : busWe (encodeRecord we a v) = we := by
  rw [busWe, encodeRecord, BitVec.getLsbD_append, BitVec.getLsbD_append]
  simp

@[simp] theorem busWaddr_encodeRecord (we : Bool) (a : BitVec 13) (v : Word) : busWaddr (encodeRecord we a v) = a :=
  (BitVec.extractLsb'_append_eq_of_le (by decide)).trans BitVec.extractLsb'_append_eq_right

@[simp] theorem busWdata_encodeRecord (we : Bool) (a : BitVec 13) (v : Word) : busWdata (encodeRecord we a v) = v :=
  BitVec.extractLsb'_append_eq_right

/-- A BUS record is its three fields side by side. -/
theorem encodeRecord_fields (r : Record) : encodeRecord (busWe r) (busWaddr r) (busWdata r) = r := by
  have hwe : BitVec.ofBool (busWe r) = r.extractLsb' 45 1 := by
    ext i hi
    obtain rfl : i = 0 := by omega
    simp [busWe]
  rw [encodeRecord, hwe, busWaddr, busWdata, BitVec.extractLsb'_append_extractLsb'_eq_extractLsb' (by decide),
    BitVec.extractLsb'_append_extractLsb'_eq_extractLsb' (by decide)]
  exact BitVec.extractLsb'_eq_self

theorem decodeRecord_read (a : BitVec 13) : decodeRecord (encodeRecord false a 0#32) = .ok (.read a) := by
  simp [decodeRecord]

theorem decodeRecord_write (a : BitVec 13) (v : Word) : decodeRecord (encodeRecord true a v) = .ok (.write a v) := by
  simp [decodeRecord]

/-- A record that decodes is the encoding of the transaction it spells: the fields of a READ are WE 0 and DATA 0. -/
theorem encode_of_decodeRecord {r : Record} {i : Instr} (h : decodeRecord r = .ok i) : encode i = .bus r := by
  rw [decodeRecord] at h
  split at h
  · rename_i hwe
    injection h with h
    rw [← h, encode, ← hwe, encodeRecord_fields]
  · rename_i hwe
    replace hwe : busWe r = false := Bool.not_eq_true _ ▸ hwe
    split at h
    · rename_i hdata
      injection h with h
      rw [← h, encode, ← hdata, ← hwe, encodeRecord_fields]
    · cases h

/-! Both formats (R64). -/

/-- An instruction is a command or a host transaction (R68). -/
theorem Instr.command_or_transaction (i : Instr) : (∃ c : Command, i = c.toInstr) ∨ Machine.isTransaction i := by
  cases i with
  | nop => exact .inl ⟨.nop, rfl⟩
  | run => exact .inl ⟨.run, rfl⟩
  | classify => exact .inl ⟨.classify, rfl⟩
  | dcs => exact .inl ⟨.dcs, rfl⟩
  | score k => exact .inl ⟨.score k, rfl⟩
  | filter => exact .inl ⟨.filter, rfl⟩
  | recover => exact .inl ⟨.recover, rfl⟩
  | resolve => exact .inl ⟨.resolve, rfl⟩
  | golayEnc => exact .inl ⟨.golayEnc, rfl⟩
  | golayChk => exact .inl ⟨.golayChk, rfl⟩
  | clrblk => exact .inl ⟨.clrblk, rfl⟩
  | read a => exact .inr (.inl ⟨a, rfl⟩)
  | write a v => exact .inr (.inr ⟨a, v, rfl⟩)

theorem encode_toInstr (c : Command) : encode c.toInstr = .cmd (encodeCommand c) := by
  cases c <;> rfl

theorem decode_cmd_ok {w : Word} {c : Command} (h : decodeCommand w = .ok c) : decode (.cmd w) = .ok c.toInstr :=
  congrArg (Except.map Command.toInstr) h

theorem decode_cmd_error {w : Word} {err : DecodeError} (h : decodeCommand w = .error err) :
    decode (.cmd w) = .error err :=
  congrArg (Except.map Command.toInstr) h

/-- A CMD word decodes as its command does: the map to instructions adds and removes nothing. -/
theorem decode_cmd_cases (w : Word) :
    (∃ c, decodeCommand w = .ok c ∧ decode (.cmd w) = .ok c.toInstr)
    ∨ ∃ err, decodeCommand w = .error err ∧ decode (.cmd w) = .error err := by
  cases h : decodeCommand w with
  | ok c => exact .inl ⟨c, rfl, decode_cmd_ok h⟩
  | error err => exact .inr ⟨err, rfl, decode_cmd_error h⟩

end Sys2Proof
end

section
/-! SUPPORT. A word written to CMD in mode IDLE (R121, R139), and the statements about encoding (R64 to R71). -/

namespace Sys2Proof.Machine

theorem exec_write_cmd (w : Word) (s : State) : exec (.write 3#13 w) s = .next (s.issue w) :=
  exec_write_mapped (busTarget_reg .cmd) w s

/-- The CMD write of a word that spells a command is its acceptance (R121). -/
theorem State.issue_of_decode {w : Word} {c : Command} {s : State} (hb : s.busy = false)
    (hd : decodeCommand w = .ok c) : s.issue w = s.accept c := by
  simp [State.issue, hb, hd]

/-- The CMD write of an illegal word raises CommandError (R139). -/
theorem State.issue_illegal {w : Word} {err : DecodeError} {s : State} (hb : s.busy = false)
    (hd : decodeCommand w = .error err) : s.issue w = s.raise .command := by
  simp [State.issue, hb, hd]

/-- Settles O1: a command's word decodes by its fields, and so does each record. -/
theorem decodeEncodeRoundTrip : Obligations.DecodeEncodeRoundTrip := by
  intro i
  rcases i.command_or_transaction with ⟨c, rfl⟩ | ⟨a, rfl⟩ | ⟨a, v, rfl⟩
  · rw [encode_toInstr]
    exact decode_cmd_ok (decodeCommand_encodeCommand c)
  · exact decodeRecord_read a
  · exact decodeRecord_write a v

/-- Settles O2: the fields of a word that decodes are those of the instruction, and a word is its fields. -/
theorem decodedWordIsTheEncoding : Obligations.DecodedWordIsTheEncoding := by
  intro e i hd
  cases e with
  | bus r => exact encode_of_decodeRecord hd
  | cmd w =>
    rcases decode_cmd_cases w with ⟨c, hc, hok⟩ | ⟨err, _, herr⟩
    · rw [hok] at hd
      injection hd with hd
      rw [← hd, encode_toInstr, (decodeCommand_eq_ok_iff w c).1 hc]
    · rw [herr] at hd
      cases hd

/-- Settles O3: the four cases are the decoder's, an illegal word is refused at the CMD register, and the words of each
opcode and of each SCORE operand are the encodings. -/
theorem cmdWordDecodesInOrder : Obligations.CmdWordDecodesInOrder := by
  refine ⟨fun w => ⟨fun hrsv => ?_, fun hrsv1 hrsv0 => ⟨fun hop => ?_, fun hop hscore harg => ?_, fun hop harg => ?_⟩⟩,
    fun w s err hd hb => ?_, fun op hop hscore => ?_, fun k => ?_⟩
  · exact decode_cmd_error (decodeCommand_reservedField hrsv)
  · exact decode_cmd_error (decodeCommand_reservedOpcode hrsv1 hrsv0 hop)
  · exact decode_cmd_error (decodeCommand_argNotZero hrsv1 hrsv0 hop hscore harg)
  · obtain ⟨c, rfl⟩ := exists_encodeCommand hrsv1 hrsv0 hop harg
    exact ⟨c, decode_cmd_ok (decodeCommand_encodeCommand c), (cmdOp_encodeCommand c).symm,
      (cmdArg8_encodeCommand c).symm⟩
  · rw [exec_write_cmd]
    rcases decode_cmd_cases w with ⟨c, _, hok⟩ | ⟨err', herr, _⟩
    · rw [hok] at hd
      cases hd
    · rw [State.issue_illegal hb herr]
      exact refusedWith_command s
  · exact existsUnique_word_of_opcode hop hscore
  · exact existsUnique_word_of_command (.score k)

/-- Settles O4: eight closed words, evaluated. -/
theorem writtenOutWordsDecode : Obligations.WrittenOutWordsDecode := by
  unfold Obligations.WrittenOutWordsDecode
  decide

/-- Settles O10: both are the acceptance of the command, one directly and one through the word that decodes to it. -/
theorem commandInIdleIsTheCmdWrite : Obligations.CommandInIdleIsTheCmdWrite := by
  intro c s hb
  rw [exec_toInstr, runCommand_idle hb, exec_write_cmd, State.issue_of_decode hb (decodeCommand_encodeCommand c)]

end Sys2Proof.Machine
end

section
/-! SUPPORT. LOAD_BLOCK (R72, R160): the writes of consecutive SAMPLE entries, what each leaves, and the run of them. -/

namespace Sys2Proof.Machine

/-! The entries from index `n` on, written one after the other (R56). -/

/-- `SAMPLE[n]`, `SAMPLE[n + 1]`, ... written with the readings in order: what a run of their WRITEs leaves
(`run_sampleWrites`). -/
def State.setSamples (s : State) (n : Nat) : List (BitVec 12) → State
  | [] => s
  | x :: xs => State.setSamples (s.setSample n x) (n + 1) xs

theorem State.setSamples_nil (s : State) (n : Nat) : s.setSamples n [] = s := rfl

theorem State.setSamples_cons (s : State) (n : Nat) (x : BitVec 12) (xs : List (BitVec 12)) :
    s.setSamples n (x :: xs) = (s.setSample n x).setSamples (n + 1) xs := rfl

theorem State.setSample_mem_wf {s : State} (h : s.mem.wf = true) (j : Nat) (x : BitVec 12) :
    (s.setSample j x).mem.wf = true :=
  Memory.wf_writeWord _ _ h

/-- A SAMPLE write leaves the reading of every other entry (R56). -/
theorem State.setSample_sampleRaw_ne (s : State) {i j : Nat} (h : i ≠ j) (x : BitVec 12) :
    (s.setSample j x).sampleRaw i = s.sampleRaw i := by
  rw [State.sampleRaw, State.setSample_mem, Memory.readWord_writeWord_outside, State.sampleRaw]
  simp only [sampleOffset]
  omega

/-- The entries written become valid, and no other valid bit changes. -/
theorem State.setSamples_sampleValid (r : List (BitVec 12)) (s : State) (n : Nat) {i : Nat} (hi : i < 4000) :
    (s.setSamples n r).sampleValid.getLsbD i = (s.sampleValid.getLsbD i || decide (n ≤ i ∧ i < n + r.length)) := by
  induction r generalizing s n with
  | nil => simp [State.setSamples_nil]
  | cons x xs ih =>
    rw [State.setSamples_cons, ih, State.setSample_sampleValid, getLsbD_or_twoPow _ _ hi, Bool.or_assoc, ← Bool.decide_or]
    congr 2
    simp only [List.length_cons, eq_iff_iff]
    omega

/-- The entries below `n` keep their readings. -/
theorem State.setSamples_sampleRaw_below (r : List (BitVec 12)) (s : State) {n i : Nat} (hi : i < n) :
    (s.setSamples n r).sampleRaw i = s.sampleRaw i := by
  induction r generalizing s n with
  | nil => rfl
  | cons x xs ih => rw [State.setSamples_cons, ih _ (by omega), State.setSample_sampleRaw_ne _ (by omega)]

/-- Each entry written holds its reading: the first one is not written again, the others by induction. -/
theorem State.setSamples_sampleRaw (r : List (BitVec 12)) {s : State} (h : s.mem.wf = true) (n : Nat) {i : Nat}
    (hi : i < r.length) : (s.setSamples n r).sampleRaw (n + i) = r.getD i 0#12 := by
  induction r generalizing s n i with
  | nil => cases hi
  | cons x xs ih =>
    rw [State.setSamples_cons]
    cases i with
    | zero =>
      rw [Nat.add_zero n, State.setSamples_sampleRaw_below xs _ (Nat.lt_add_one n), State.setSample_sampleRaw h,
        List.getD_cons_zero]
    | succ i =>
      have hnext : n + (i + 1) = n + 1 + i := by omega
      rw [hnext, ih (State.setSample_mem_wf h n x) (n + 1) (Nat.lt_of_succ_lt_succ hi), List.getD_cons_succ]

/-- Nothing but the memory and the SAMPLE valid bits changes. -/
theorem State.setSamples_frame (r : List (BitVec 12)) (s : State) (n : Nat) :
    s.setSamples n r
      = { s with mem := (s.setSamples n r).mem, sampleValid := (s.setSamples n r).sampleValid } := by
  induction r generalizing s n with
  | nil => rfl
  | cons x xs ih => exact ih (s.setSample n x) (n + 1)

/-! The moves (R71, R72), and the step and the run that perform them. -/

/-- The WRITE of a SAMPLE entry, as it stands in the agenda. -/
def sampleWrite (j : Nat) (x : BitVec 12) : Event := asmEvent (.wr (.sample j) (x.setWidth 32))

/-- The WRITEs of the entries from index `n` on. -/
def sampleWrites (n : Nat) : List (BitVec 12) → List Event
  | [] => []
  | x :: xs => sampleWrite n x :: sampleWrites (n + 1) xs

/-- LOAD_BLOCK is the WRITEs from entry 0 on (R72). -/
theorem assemble_loadBlock (r : List (BitVec 12)) : assemble (expand (.loadBlock r)) = sampleWrites 0 r := by
  have hfrom : ∀ n, (r.zipIdx n).map (fun e => sampleWrite e.2 e.1) = sampleWrites n r := by
    induction r with
    | nil => exact fun _ => rfl
    | cons x xs ih => exact fun n => congrArg _ (ih (n + 1))
  exact List.map_map.trans (hfrom 0)

/-- The WRITE of a SAMPLE entry is the BUS record at its word offset (R66, R71). -/
theorem sampleWrite_eq {j : Nat} (hj : j < 4000) (x : BitVec 12) :
    sampleWrite j x = .word (encode (.write (BitVec.ofNat 13 (sampleOffset j / 4)) (x.setWidth 32))) := by
  have hoff : (BitVec.ofNat 15 (sampleOffset j)).toNat = sampleOffset j := by
    simp only [sampleOffset, BitVec.toNat_ofNat]
    omega
  have haligned : sampleOffset j % 4 = 0 := by
    simp only [sampleOffset]
    omega
  have hword : (BitVec.ofNat 15 (sampleOffset j)).extractLsb' 2 13 = BitVec.ofNat 13 (sampleOffset j / 4) := by
    apply BitVec.eq_of_toNat_eq
    rw [BitVec.extractLsb'_toNat, hoff, Nat.shiftRight_eq_div_pow, BitVec.toNat_ofNat]
  change transaction true (BitVec.ofNat 15 (sampleOffset j)) (x.setWidth 32) = _
  rw [transaction, hoff, if_pos haligned, hword, encode]

/-- In mode IDLE the step of a SAMPLE write stores the reading. -/
theorem step_sampleWrite {s : State} {j : Nat} {x : BitVec 12} {rest : List Event} (hb : s.busy = false)
    (hj : j < 4000) (hagenda : s.agenda = sampleWrite j x :: rest) :
    step s = .next ({ s with agenda := rest }.setSample j x) := by
  rw [sampleWrite_eq hj] at hagenda
  rw [step_of_run ((fetch_word hagenda).trans (wordMove_of_decode (decodeEncodeRoundTrip _) fun _ => hb)),
    exec_write_sample (s := { s with agenda := rest }) hb hj,
    BitVec.setWidth_setWidth_of_le _ (by decide), BitVec.setWidth_eq]

/-- A run goes on from the state its first step gives. -/
theorem coreRun_succ {M : Host.Core} {s t : M.State} (h : M.step s = .next t) (k : Nat) :
    M.run (k + 1) s = M.run k t := by
  rw [Host.Core.run, h]

/-- From mode IDLE the run of the WRITEs leaves each entry written and the agenda empty. -/
theorem run_sampleWrites (r : List (BitVec 12)) {s : State} {n : Nat} (hb : s.busy = false) (hn : n + r.length ≤ 4000)
    (hagenda : s.agenda = sampleWrites n r) :
    Sys2Proof.core.run r.length s = .next ({ s with agenda := [] }.setSamples n r) := by
  induction r generalizing s n with
  | nil =>
    have hnil : s.agenda = [] := hagenda
    exact congrArg Host.Outcome.next (show s = { s with agenda := [] } by rw [← hnil])
  | cons x xs ih =>
    rw [List.length_cons] at hn
    have hstep := step_sampleWrite hb (by omega) hagenda
    exact (coreRun_succ (M := Sys2Proof.core) hstep xs.length).trans (ih hb (by omega) rfl)

/-- Settles O29: the run leaves the 4000 entries written, so each is valid and holds its reading, and nothing else. -/
theorem loadBlockLoadsTheBlock : Obligations.LoadBlockLoadsTheBlock := by
  intro s r hlen hb hwf hagenda
  rw [assemble_loadBlock] at hagenda
  refine ⟨{ s with agenda := [] }.setSamples 0 r, ?_, fun j hj => ?_, fun j hj => ?_,
    State.setSamples_frame r { s with agenda := [] } 0⟩
  · rw [← hlen]
    exact run_sampleWrites r hb (by omega) hagenda
  · rw [State.setSamples_sampleValid _ _ _ hj, hlen, decide_eq_true (by omega), Bool.or_true]
  · have hread := State.setSamples_sampleRaw r (s := { s with agenda := [] }) hwf 0 (hlen.symm ▸ hj)
    rwa [Nat.zero_add] at hread

end Sys2Proof.Machine
end

section
/-! SUPPORT. The classifier (R79 to R81) and its lanes (R83): the sequential scan, a lane and the reduction of lanes all
have the sum, the maximum and the lowest index of the tones they read, and only one result has these. -/

namespace Sys2Proof.Machine

/-! What a scan of some tones has found, and that it is kept by the join of R83. -/

/-- A scan's result for the tones of a list: their sum, their greatest score, the lowest tone that has it. The maximum
-1 is that of a scan that has found no score; it stands below every score (R79). -/
def IsScan (sc : Nat → Int) (l : List Nat) (a : ToneScan) : Prop :=
  a.sum = (l.map sc).sum ∧ (a.max = -1 ∨ a.idx ∈ l ∧ sc a.idx = a.max) ∧ (∀ k ∈ l, sc k ≤ a.max)
    ∧ ∀ k ∈ l, k < a.idx → sc k < a.max

theorem isScan_nil (sc : Nat → Int) (i : Nat) : IsScan sc [] { sum := 0, max := -1, idx := i } :=
  ⟨rfl, .inl rfl, nofun, nofun⟩

theorem isScan_one (sc : Nat → Int) (k : Nat) : IsScan sc [k] (scanOne sc k) :=
  ⟨List.sum_singleton.symm, .inr ⟨List.mem_singleton_self k, rfl⟩,
    fun _ hi => (congrArg sc (List.mem_singleton.1 hi)).le, fun _ hi hlt => absurd (List.mem_singleton.1 hi) hlt.ne⟩

/-- The join has the maximum and the index of the part with the greater maximum; of equal parts, the lower index. -/
theorem scanJoin_cases (a b : ToneScan) :
    (a.max < b.max ∧ scanJoin a b = { sum := a.sum + b.sum, max := b.max, idx := b.idx })
    ∨ (b.max < a.max ∧ scanJoin a b = { sum := a.sum + b.sum, max := a.max, idx := a.idx })
    ∨ (a.max = b.max ∧ scanJoin a b = { sum := a.sum + b.sum, max := a.max, idx := min a.idx b.idx }) := by
  rcases lt_trichotomy a.max b.max with h | h | h
  · exact .inl ⟨h, by simp [scanJoin, h]⟩
  · exact .inr (.inr ⟨h, by simp [scanJoin, h]⟩)
  · exact .inr (.inl ⟨h, by simp [scanJoin, h, h.not_gt]⟩)

section
variable {sc : Nat → Int} {l m : List Nat} {a b : ToneScan}

theorem IsScan.join (ha : IsScan sc l a) (hb : IsScan sc m b) : IsScan sc (l ++ m) (scanJoin a b) := by
  obtain ⟨hatotal, haattained, hagreatest, halowest⟩ := ha
  obtain ⟨hbtotal, hbattained, hbgreatest, hblowest⟩ := hb
  have htotal : a.sum + b.sum = ((l ++ m).map sc).sum := by
    rw [List.map_append, List.sum_append, hatotal, hbtotal]
  rcases scanJoin_cases a b with ⟨h, he⟩ | ⟨h, he⟩ | ⟨h, he⟩
  all_goals rw [he]
  · exact ⟨htotal, hbattained.imp_right (And.imp_left (List.mem_append_right l)),
      List.forall_mem_append.2 ⟨fun k hk => (hagreatest k hk).trans h.le, hbgreatest⟩,
      List.forall_mem_append.2 ⟨fun k hk _ => (hagreatest k hk).trans_lt h, hblowest⟩⟩
  · exact ⟨htotal, haattained.imp_right (And.imp_left (List.mem_append_left m)),
      List.forall_mem_append.2 ⟨hagreatest, fun k hk => (hbgreatest k hk).trans h.le⟩,
      List.forall_mem_append.2 ⟨halowest, fun k hk _ => (hbgreatest k hk).trans_lt h⟩⟩
  · refine ⟨htotal, ?_, List.forall_mem_append.2 ⟨hagreatest, fun k hk => (hbgreatest k hk).trans h.ge⟩,
      List.forall_mem_append.2 ⟨fun k hk hlt => halowest k hk (lt_min_iff.1 hlt).1,
        fun k hk hlt => (hblowest k hk (lt_min_iff.1 hlt).2).trans_eq h.symm⟩⟩
    rcases haattained with hnone | ⟨hamem, hamax⟩
    · exact .inl hnone
    · rcases hbattained with hnone | ⟨hbmem, hbmax⟩
      · exact .inl (h.trans hnone)
      · rcases min_choice a.idx b.idx with hmin | hmin
        · exact .inr (hmin.symm ▸ ⟨List.mem_append_left m hamem, hamax⟩)
        · exact .inr (hmin.symm ▸ ⟨List.mem_append_right l hbmem, hbmax.trans h.symm⟩)

theorem IsScan.perm (ha : IsScan sc l a) (h : l.Perm m) : IsScan sc m a := by
  obtain ⟨htotal, hattained, hgreatest, hlowest⟩ := ha
  exact ⟨htotal.trans (h.map sc).sum_eq, hattained.imp_right (And.imp_left h.mem_iff.1),
    fun k hk => hgreatest k (h.mem_iff.2 hk), fun k hk => hlowest k (h.mem_iff.2 hk)⟩

/-- With no negative score, a scan of some tone has found one. -/
theorem IsScan.attained_of_nonneg (ha : IsScan sc l a) (hl : l ≠ []) (h0 : ∀ k ∈ l, 0 ≤ sc k) :
    a.idx ∈ l ∧ sc a.idx = a.max := by
  obtain ⟨_, hattained, hgreatest, _⟩ := ha
  obtain ⟨k, hk⟩ := List.exists_mem_of_ne_nil l hl
  have hmax : 0 ≤ a.max := (h0 k hk).trans (hgreatest k hk)
  exact hattained.resolve_left (by omega)

/-- The sum, the maximum and its lowest index are one result: neither index can lie below the other. -/
theorem IsScan.unique (ha : IsScan sc l a) (hb : IsScan sc l b) (hl : l ≠ []) (h0 : ∀ k ∈ l, 0 ≤ sc k) : a = b := by
  obtain ⟨hamem, hamax⟩ := ha.attained_of_nonneg hl h0
  obtain ⟨hbmem, hbmax⟩ := hb.attained_of_nonneg hl h0
  obtain ⟨hatotal, _, hagreatest, halowest⟩ := ha
  obtain ⟨hbtotal, _, hbgreatest, hblowest⟩ := hb
  have hsum : a.sum = b.sum := hatotal.trans hbtotal.symm
  have hle : a.max ≤ b.max := hamax ▸ hbgreatest _ hamem
  have hge : b.max ≤ a.max := hbmax ▸ hagreatest _ hbmem
  have hidx : a.idx = b.idx := by
    rcases lt_trichotomy a.idx b.idx with h | h | h
    · have hlow := hblowest _ hamem h
      omega
    · exact h
    · have hlow := halowest _ hbmem h
      omega
  cases a
  cases b
  simp only [ToneScan.mk.injEq]
  exact ⟨hsum, le_antisymm hle hge, hidx⟩

end

/-! The sequential scan (R79) and the lanes (R83). -/

/-- A step of the scan joins the tone: in index order the strict comparison keeps the lower index of a tie (R79). -/
theorem scanStep_eq_join (sc : Nat → Int) {a : ToneScan} {k : Nat} (h : a.idx ≤ k) :
    scanStep sc a k = scanJoin a (scanOne sc k) := by
  rcases scanJoin_cases a (scanOne sc k) with ⟨hc, he⟩ | ⟨hc, he⟩ | ⟨hc, he⟩
  all_goals rw [he, scanStep]; simp only [scanOne] at hc ⊢
  · rw [if_pos hc]
  · rw [if_neg hc.not_gt]
  · rw [if_neg hc.not_lt, min_eq_left h]

theorem isScan_range (sc : Nat → Int) (n : Nat) :
    IsScan sc (List.range n) ((List.range n).foldl (scanStep sc) scanStart) := by
  induction n with
  | zero => exact isScan_nil sc 0
  | succ n ih =>
    have hidx : ((List.range n).foldl (scanStep sc) scanStart).idx < n + 1 :=
      scanStep_foldl_idx_lt sc _ _ n.succ_pos fun k hk => (List.mem_range.1 hk).trans n.lt_succ_self
    rw [List.range_succ, List.foldl_concat, scanStep_eq_join sc (Nat.le_of_lt_succ hidx)]
    exact ih.join (isScan_one sc n)

theorem isScan_scanScores (sc : Nat → Int) : IsScan sc (List.range 50) (scanScores sc) := isScan_range sc 50

theorem isScan_laneScan (sc : Nat → Int) (l : List Nat) : IsScan sc l (laneScan sc l) := by
  induction l with
  | nil => exact isScan_nil sc _
  | cons k ks ih => exact (isScan_one sc k).join ih

theorem isScan_lanesScan (sc : Nat → Int) (lanes : List (List Nat)) : IsScan sc lanes.flatten (lanesScan sc lanes) := by
  induction lanes with
  | nil => exact isScan_nil sc _
  | cons lane lanes ih => exact (isScan_laneScan sc lane).join ih

/-- Each tone is dealt to one lane, the one of its remainder. -/
theorem dealtLanes_perm {n : Nat} (hn : 1 ≤ n) : (dealtLanes n).flatten.Perm (List.range 50) := by
  have hnodup : (dealtLanes n).flatten.Nodup := by
    rw [List.nodup_flatten, dealtLanes, List.pairwise_map]
    refine ⟨fun lane hlane => ?_, List.nodup_range.imp fun {l l'} hne k hk hk' => hne ?_⟩
    · obtain ⟨l, _, rfl⟩ := List.mem_map.1 hlane
      exact List.nodup_range.filter _
    · simp only [List.mem_filter, beq_iff_eq] at hk hk'
      exact hk.2.symm.trans hk'.2
  refine (List.perm_ext_iff_of_nodup hnodup List.nodup_range).2 fun k => ?_
  simp only [dealtLanes, List.mem_flatten, List.mem_map, List.mem_range]
  constructor
  · rintro ⟨_, ⟨l, _, rfl⟩, hk⟩
    exact List.mem_range.1 (List.mem_of_mem_filter hk)
  · intro hk
    exact ⟨_, ⟨k % n, Nat.mod_lt k hn, rfl⟩, List.mem_filter.2 ⟨List.mem_range.2 hk, beq_self_eq_true _⟩⟩

/-- Settles O37: the lanes and the scan find the same of the same tones, whatever their order, and one result has it. -/
theorem lanesReduceToTheSequentialScan : Obligations.LanesReduceToTheSequentialScan := by
  have hany : ∀ (sc : Nat → Int) (lanes : List (List Nat)), (∀ k : Nat, k < 50 → 0 ≤ sc k) →
      lanes.flatten.Perm (List.range 50) → lanesScan sc lanes = scanScores sc := fun sc lanes h0 hperm =>
    ((isScan_lanesScan sc lanes).perm hperm).unique (isScan_scanScores sc) (by decide) fun k hk =>
      h0 k (List.mem_range.1 hk)
  exact ⟨hany, fun sc n h0 hn _ => hany sc _ h0 (dealtLanes_perm hn)⟩

theorem sum_map_range (f : Nat → Int) (n : Nat) : ((List.range n).map f).sum = ∑ k ∈ Finset.range n, f k := by
  rw [← List.toFinset_range, List.sum_toFinset f List.nodup_range]

/-- Settles O33: what the scan of all fifty tones has found. -/
theorem scanFindsTheLowestMaximum : Obligations.ScanFindsTheLowestMaximum := by
  intro sc h0
  have hscan := isScan_scanScores sc
  obtain ⟨hmem, hmax⟩ := hscan.attained_of_nonneg (by decide) fun k hk => h0 k (List.mem_range.1 hk)
  obtain ⟨htotal, _, hgreatest, hlowest⟩ := hscan
  have hidx : (scanScores sc).idx < 50 := List.mem_range.1 hmem
  exact ⟨htotal.trans (sum_map_range sc 50), hidx, hmax, fun k hk => hgreatest k (List.mem_range.2 hk),
    fun k hk => hlowest k (List.mem_range.2 (hk.trans hidx)) hk⟩

/-! The average and the decision (R79 to R81). -/

section
variable {sc : Nat → Int} (h0 : ∀ k : Nat, k < 50 → 0 ≤ sc k)
include h0

/-- The maximum is one of the scores summed. -/
theorem scanScores_max_le_sum : (scanScores sc).max ≤ (scanScores sc).sum := by
  obtain ⟨hsum, hidx, hmax, _, _⟩ := scanFindsTheLowestMaximum sc h0
  rw [hsum, ← hmax]
  exact Finset.single_le_sum (fun k hk => h0 k (Finset.mem_range.1 hk)) (Finset.mem_range.2 hidx)

theorem scanAverage_eq_max :
    scanAverage (scanScores sc) = max 1 (((scanScores sc).sum - (scanScores sc).max) / 50) := by
  have hle := scanScores_max_le_sum h0
  simp only [scanAverage, Config.avgDiv, Nat.cast_ofNat]
  split
  · omega
  · omega

/-- The scan's index is the one tone that no score exceeds and no lower tone equals. -/
theorem eq_scanScores_idx_iff (k : Nat) :
    k = (scanScores sc).idx ↔ k < 50 ∧ (∀ i : Nat, i < 50 → sc i ≤ sc k) ∧ ∀ i : Nat, i < k → sc i < sc k := by
  obtain ⟨_, hidx, hmax, hgreatest, hlowest⟩ := scanFindsTheLowestMaximum sc h0
  rw [← hmax] at hgreatest hlowest
  constructor
  · rintro rfl
    exact ⟨hidx, hgreatest, hlowest⟩
  · rintro ⟨hk, hgreatest', hlowest'⟩
    rcases lt_trichotomy k (scanScores sc).idx with h | h | h
    · exact absurd (hlowest k h) (hgreatest' _ hidx).not_gt
    · exact h
    · exact absurd (hlowest' _ h) (hgreatest k hk).not_gt

theorem scanDecision_eq_some_iff (k : Nat) :
    scanDecision (scanScores sc) = some k ↔ k = (scanScores sc).idx ∧ k ≠ 0
      ∧ scanAverage (scanScores sc) * 50 < sc k := by
  obtain ⟨_, _, hmax, _, _⟩ := scanFindsTheLowestMaximum sc h0
  constructor
  · intro h
    obtain rfl := scanDecision_eq_some h
    rw [scanDecision, Option.ite_none_right_eq_some] at h
    obtain ⟨⟨hpass, hne⟩, _⟩ := h
    exact ⟨rfl, hne, hmax ▸ hpass⟩
  · rintro ⟨rfl, hne, hpass⟩
    rw [scanDecision, if_pos ⟨hmax ▸ hpass, hne⟩]

end

/-- Settles O34: the tone reported is the scan's index, which is the lowest maximum, with the two tests it passes. -/
theorem decisionExcludesTheReservedTone : Obligations.DecisionExcludesTheReservedTone := by
  intro sc h0
  obtain ⟨hsum, _, hmax, _, _⟩ := scanFindsTheLowestMaximum sc h0
  refine ⟨fun k => ?_, fun hzero => ?_⟩
  · rw [scanDecision_eq_some_iff h0, scanAverage_eq_max h0, hsum, ← hmax, mul_comm]
    constructor
    · rintro ⟨hk, hne, hpass⟩
      obtain ⟨hlt, hgreatest, hlowest⟩ := (eq_scanScores_idx_iff h0 k).1 hk
      exact ⟨hne, hlt, hgreatest, hlowest, by rwa [← hk] at hpass⟩
    · rintro ⟨hne, hlt, hgreatest, hlowest, hpass⟩
      have hk := (eq_scanScores_idx_iff h0 k).2 ⟨hlt, hgreatest, hlowest⟩
      exact ⟨hk, hne, by rwa [← hk]⟩
  · have hidx : 0 = (scanScores sc).idx := (eq_scanScores_idx_iff h0 0).2 ⟨by decide, hzero, nofun⟩
    refine Option.eq_none_iff_forall_ne_some.2 fun k hk => ?_
    obtain ⟨hk, hne, _⟩ := (scanDecision_eq_some_iff h0 k).1 hk
    exact hne (hk.trans hidx.symm)

/-- Settles O35: the sum has fifty scores, the sum without the maximum forty-nine. -/
theorem classifierValuesStayInBounds : Obligations.ClassifierValuesStayInBounds := by
  intro sc hsc
  have h0 : ∀ k : Nat, k < 50 → 0 ≤ sc k := fun k hk => (hsc k hk).1
  obtain ⟨hsum, hidx, hmax, _, _⟩ := scanFindsTheLowestMaximum sc h0
  have hle := scanScores_max_le_sum h0
  have hidx' := Finset.mem_range.2 hidx
  have hmaxBound := hsc _ hidx
  have hrest : (scanScores sc).sum - (scanScores sc).max ≤ 98000000 := by
    have hcard := Finset.sum_le_card_nsmul ((Finset.range 50).erase (scanScores sc).idx) sc 2000000 fun k hk =>
      (hsc k (Finset.mem_range.1 (Finset.mem_of_mem_erase hk))).2
    rw [Finset.card_erase_of_mem hidx', Finset.card_range, Finset.sum_erase_eq_sub hidx', ← hsum, hmax,
      nsmul_eq_mul] at hcard
    exact hcard
  rw [scanAverage_eq_max h0]
  omega

end Sys2Proof.Machine
end

section
/-! SUPPORT. The scorer's arithmetic (R73 to R78): the angle, the two accumulators as one correlation with a table, a
silent block (R85), and the bounds of R77. -/

namespace Sys2Proof.Machine

/-! The shift that floors (R14) and the angle (R73). -/

theorem floorShift_eq_div (a : Int) (k : Nat) : floorShift a k = a / 2 ^ k := by
  rw [floorShift, Int.shiftRight_eq_div_pow, Nat.cast_pow, Nat.cast_ofNat]

theorem angle_eq_div (j sf : Nat) : angle j sf = (j * sf + 1024) / 2048 % 1024 := by
  rw [angle, Nat.shiftRight_eq_div_pow]

/-- Settles O30: the angle is a quotient by 2^11 modulo 2^10, and each clause is about that quotient. -/
theorem angleIsTheMiddleBits : Obligations.AngleIsTheMiddleBits := by
  intro j sf
  rw [angle_eq_div]
  refine ⟨?_, fun j' sf' h => ?_, ?_, ?_⟩
  · rw [BitVec.extractLsb'_toNat, BitVec.toNat_ofNat, Nat.shiftRight_eq_div_pow]
    omega
  · rw [angle_eq_div]
    omega
  · omega
  · omega

/-! The accumulators (R75): I and Q are one sum, with one table or the other. -/

/-- The sum of a table's products with the block, each floored by 64; I and Q are such sums (`toneSums_i_eq`,
`toneSums_q_eq`). -/
def correlation (tab : Nat → Int) (blk : Nat → Int) (sf : Nat) : Int :=
  ∑ j ∈ Finset.range 4000, tab (angle j sf) * blk j / 64

theorem sum_floorShift (tab : Nat → Int) (blk : Nat → Int) (sf : Nat) :
    ((List.range Config.blockLen).map fun j => floorShift (tab (angle j sf) * blk j) 6).sum
      = correlation tab blk sf := by
  rw [sum_map_range]
  exact Finset.sum_congr rfl fun j _ => floorShift_eq_div _ _

theorem toneSums_i_eq (p : Config.Params) (blk : Nat → Int) (sf : Nat) :
    (toneSums p blk sf).i = correlation p.sinAt blk sf :=
  (toneSums_i p blk sf).trans (sum_floorShift p.sinAt blk sf)

theorem toneSums_q_eq (p : Config.Params) (blk : Nat → Int) (sf : Nat) :
    (toneSums p blk sf).q = correlation p.cosAt blk sf :=
  (toneSums_q p blk sf).trans (sum_floorShift p.cosAt blk sf)

theorem score_eq (p : Config.Params) (blk : Nat → Int) (sf : Nat) :
    score p blk sf = (correlation p.sinAt blk sf / 65536) ^ 2 + (correlation p.cosAt blk sf / 65536) ^ 2 := by
  rw [score, scoreOfSums, toneSums_i_eq, toneSums_q_eq, floorShift_eq_div, floorShift_eq_div]
  rfl

/-- Settles O31: the score is the sum of two squares, and each root is a floored correlation. -/
theorem scoreIsTheFlooredCorrelation : Obligations.ScoreIsTheFlooredCorrelation := by
  intro p blk sf
  rw [score_eq, pow_two, pow_two]
  rfl

/-- Settles O36: every term of both correlations is 0, and entry 0 has the maximum of equal scores. -/
theorem silentBlockGivesNoTone : Obligations.SilentBlockGivesNoTone := by
  intro p blk hblk
  have hcorr : ∀ (tab : Nat → Int) (sf : Nat), correlation tab blk sf = 0 := fun tab sf =>
    Finset.sum_eq_zero fun j hj => by rw [hblk j (Finset.mem_range.1 hj), mul_zero, Int.zero_ediv]
  have hscore : ∀ k : Nat, toneScores p blk k = 0 := fun k => by
    rw [toneScores, score_eq, hcorr, hcorr]
    rfl
  refine ⟨hscore, (decisionExcludesTheReservedTone _ fun k _ => (hscore k).ge).2 fun i _ => ?_⟩
  rw [hscore, hscore]

/-! The bounds of R77. -/

theorem forall_getD {α : Type} {P : α → Prop} {l : List α} {d : α} (hl : ∀ v ∈ l, P v) (hd : P d) (a : Nat) :
    P (l.getD a d) := by
  rcases Nat.lt_or_ge a l.length with h | h
  · rw [List.getD_eq_getElem l d h]
    exact hl _ (List.getElem_mem h)
  · rw [List.getD_eq_default l d h]
    exact hd

/-- The table words of a well-formed configuration lie in [-2048, 2047] (R10), and so does the 0 past a table's end. -/
theorem trig_bounds {p : Config.Params} (h : p.wf = true) (a : Nat) :
    (-2048 ≤ p.sinAt a ∧ p.sinAt a ≤ 2047) ∧ (-2048 ≤ p.cosAt a ∧ p.cosAt a ≤ 2047) := by
  simp only [Config.Params.wf, Config.Params.trigOk, Bool.and_eq_true, List.all_eq_true, decide_eq_true_eq] at h
  obtain ⟨⟨⟨⟨⟨_, ⟨_, hsin⟩, hcos⟩, _⟩, _⟩, _⟩, _⟩ := h
  exact ⟨forall_getD hsin (by decide) a, forall_getD hcos (by decide) a⟩

/-- A table word times a centred sample: the extremes are 2047 * -512 and -2048 * -512. -/
theorem product_bounds {v x : Int} (hv : -2048 ≤ v ∧ v ≤ 2047) (hx : -512 ≤ x ∧ x ≤ 511) :
    -1048064 ≤ v * x ∧ v * x ≤ 1048576 := by
  obtain ⟨hv0, hv1⟩ := hv
  obtain ⟨hx0, hx1⟩ := hx
  rcases le_total 0 x with h | h
  · have hlo := mul_le_mul_of_nonneg_right hv0 h
    have hhi := mul_le_mul_of_nonneg_right hv1 h
    omega
  · have hlo := mul_le_mul_of_nonpos_right hv1 h
    have hhi := mul_le_mul_of_nonpos_right hv0 h
    omega

section
variable {tab blk : Nat → Int} (htab : ∀ a, -2048 ≤ tab a ∧ tab a ≤ 2047) (hblk : ∀ j, -512 ≤ blk j ∧ blk j ≤ 511)
include htab hblk

/-- An accumulator is 4000 terms in [-16376, 16384]. -/
theorem correlation_bounds (sf : Nat) :
    -65504000 ≤ correlation tab blk sf ∧ correlation tab blk sf ≤ 65536000 := by
  have hterm : ∀ j, -16376 ≤ tab (angle j sf) * blk j / 64 ∧ tab (angle j sf) * blk j / 64 ≤ 16384 := fun j => by
    obtain ⟨hlo, hhi⟩ := product_bounds (htab (angle j sf)) (hblk j)
    omega
  have hlo := Finset.card_nsmul_le_sum (Finset.range 4000) _ _ fun j _ => (hterm j).1
  have hhi := Finset.sum_le_card_nsmul (Finset.range 4000) _ _ fun j _ => (hterm j).2
  rw [Finset.card_range, nsmul_eq_mul] at hlo hhi
  exact ⟨hlo, hhi⟩

theorem correlation_shifted_bounds (sf : Nat) :
    -1000 ≤ correlation tab blk sf / 65536 ∧ correlation tab blk sf / 65536 ≤ 1000 := by
  obtain ⟨hlo, hhi⟩ := correlation_bounds htab hblk sf
  omega

end

/-- The score is the sum of two squares of at most 1000^2 each (R77). -/
theorem score_bounds {p : Config.Params} {blk : Nat → Int} (hp : p.wf = true)
    (hblk : ∀ j, -512 ≤ blk j ∧ blk j ≤ 511) (sf : Nat) : 0 ≤ score p blk sf ∧ score p blk sf ≤ 2000000 := by
  have hi := correlation_shifted_bounds (fun a => (trig_bounds hp a).1) hblk sf
  have hq := correlation_shifted_bounds (fun a => (trig_bounds hp a).2) hblk sf
  have hi2 := sq_le_sq' hi.1 hi.2
  have hq2 := sq_le_sq' hq.1 hq.2
  rw [score_eq]
  exact ⟨add_nonneg (sq_nonneg _) (sq_nonneg _), (add_le_add hi2 hq2).trans (by norm_num)⟩

/-- Settles O32: the bounds of a product carry over to its shift, to the sums, to their shifts and to the score. -/
theorem toneValuesStayInBounds : Obligations.ToneValuesStayInBounds := by
  intro p blk sf hp hblk
  have hsin : ∀ a, -2048 ≤ p.sinAt a ∧ p.sinAt a ≤ 2047 := fun a => (trig_bounds hp a).1
  have hcos : ∀ a, -2048 ≤ p.cosAt a ∧ p.cosAt a ≤ 2047 := fun a => (trig_bounds hp a).2
  obtain ⟨hilo, hihi⟩ := correlation_bounds hsin hblk sf
  obtain ⟨hqlo, hqhi⟩ := correlation_bounds hcos hblk sf
  obtain ⟨hislo, hishi⟩ := correlation_shifted_bounds hsin hblk sf
  obtain ⟨hqslo, hqshi⟩ := correlation_shifted_bounds hcos hblk sf
  simp only [toneSums_i_eq, toneSums_q_eq, floorShift_eq_div]
  refine ⟨fun j => ?_, hilo, hihi, hqlo, hqhi, hislo, hishi, hqslo, hqshi, score_bounds hp hblk sf⟩
  obtain ⟨hslo, hshi⟩ := product_bounds (hsin (angle j sf)) (hblk j)
  obtain ⟨hclo, hchi⟩ := product_bounds (hcos (angle j sf)) (hblk j)
  omega

end Sys2Proof.Machine
end

section
/-! SUPPORT. The commands SCORE (R78) and CLASSIFY (R84): what their completions commit, and that each number fits the
register it is committed to. -/

namespace Sys2Proof.Machine

/-- A number from 0 to 2^32 - 1 is read back from the word it is narrowed to (R17). -/
theorem to32_toNat {x : Int} (h0 : 0 ≤ x) (h : x < 2 ^ 32) : ((to32 x).toNat : Int) = x := by
  rw [to32, BitVec.toNat_ofInt]
  omega

/-- The fields of TONE_RESULT (R32): a tone index fits INDEX. -/
theorem packTone_shows {r : Option Nat} (hr : ∀ k, r = some k → k < 64) : toneResultShows r (packTone r) := by
  cases r with
  | none => exact ⟨rfl, nofun, rfl, fun _ => rfl⟩
  | some k =>
    have hfields : ∀ k < 64, (packTone (some k)).getLsbD 31 = true ∧ ((packTone (some k)).extractLsb' 0 6).toNat = k
        ∧ (packTone (some k)).extractLsb' 6 25 = 0#25 := by decide
    obtain ⟨hvalid, hindex, hrest⟩ := hfields k (hr k rfl)
    exact ⟨hvalid, fun _ h => hindex.trans (Option.some.inj h), hrest, nofun⟩

theorem scanDecision_scanScores_lt {sc : Nat → Int} {k : Nat} (h : scanDecision (scanScores sc) = some k) : k < 64 := by
  have hidx := scanScores_idx_lt sc
  rw [scanDecision_eq_some h]
  omega

/-- Every score of a block held in SAMPLE is within R77's bound. -/
theorem State.toneScores_bounds (s : State) (k : Nat) :
    0 ≤ toneScores Config.hw.params s.block k ∧ toneScores Config.hw.params s.block k ≤ 2000000 :=
  score_bounds Config.hw.ok s.block_bounds _

theorem State.toneScore_toNat (s : State) (k : Nat) :
    ((to32 (toneScores Config.hw.params s.block k)).toNat : Int) = toneScores Config.hw.params s.block k := by
  obtain ⟨h0, hle⟩ := s.toneScores_bounds k
  exact to32_toNat h0 (by omega)

/-- With the block loaded, a pending command that does not read WAVE completes (R120, R122). -/
theorem exec_of_blockLoaded {c : Command} {s : State} (hb : s.busy = true) (hp : s.pending = c) (hl : blockLoaded s)
    (hc : c ≠ .recover) : exec c.toInstr s = .next ((commitOf c s).finish c) := by
  rw [exec_toInstr]
  exact runCommand_pending hb hp ⟨fun _ => hl, fun h => absurd h hc⟩

/-- Settles O19: the commit is the score, which RESULT holds exactly. -/
theorem scoreCompletes : Obligations.ScoreCompletes := fun k s hb hp _ hl =>
  ⟨_, _, completedStatus_of _ s.status, s.toneScore_toNat k.toNat, exec_of_blockLoaded hb hp hl nofun⟩

/-- With `cfg.debug` the fifty scores are committed (R82). -/
theorem commitTone_scores_getElem (p : Config.Params) {s : State} (h : s.cfgDebug = true) (k : Fin 50) :
    (commitTone p s).scores[k] = to32 (toneScores p s.block k) := by
  simp [commitTone, h]

theorem commitTone_scores_of_not_debug (p : Config.Params) {s : State} (h : s.cfgDebug = false) :
    (commitTone p s).scores = s.scores := by
  simp [commitTone, h]

/-- Settles O20: the commit holds the decision and the numbers of the scan, each within its register's range. -/
theorem classifyCompletes : Obligations.ClassifyCompletes := by
  intro s hb hp hl
  have hsc := s.toneScores_bounds
  obtain ⟨_, hidx, hmax, _, _⟩ := scanFindsTheLowestMaximum _ fun k _ => (hsc k).1
  obtain ⟨_, _, _, havg0, havg1, _, _⟩ := classifierValuesStayInBounds _ fun k _ => hsc k
  have hmaxBounds := hmax ▸ hsc _
  refine ⟨(commitClassify s).finish .classify, exec_of_blockLoaded hb hp hl nofun, completedStatus_of _ s.status, rfl,
    packTone_shows fun _ => scanDecision_scanScores_lt, to32_toNat hmaxBounds.1 (by omega),
    to32_toNat (by omega) (by omega), Nat.mod_eq_of_lt (by omega), fun hd k => ?_,
    commitTone_scores_of_not_debug Config.hw.params⟩
  rw [State.finish_scores, commitClassify, commitTone_scores_getElem _ hd]
  exact s.toneScore_toNat k

end Sys2Proof.Machine
end

section
/-! SUPPORT. The filter (R86 to R92): its symmetric form is the convolution with its impulse response (R88), from which
follow what it reads (R87) and its bound (R89); then what the filter commit leaves (R91) and the command FILTER. -/

namespace Sys2Proof.Machine

/-! The symmetric form and the impulse response (R86, R88). -/

/-- An odd number of terms, added in pairs from the two ends, and the middle one. -/
theorem sum_range_eq_pairs (f : Nat → Int) (n : Nat) :
    ∑ k ∈ Finset.range (2 * n + 1), f k = ∑ j ∈ Finset.range n, (f j + f (2 * n - j)) + f n := by
  have hupper : ∑ j ∈ Finset.range n, f (n + 1 + j) = ∑ j ∈ Finset.range n, f (2 * n - j) := by
    rw [← Finset.sum_range_reflect]
    refine Finset.sum_congr rfl fun j hj => congrArg f ?_
    have hjn := Finset.mem_range.1 hj
    omega
  rw [show 2 * n + 1 = n + 1 + n by omega, Finset.sum_range_add, Finset.sum_range_succ, hupper,
    Finset.sum_add_distrib]
  ring

theorem firImpulse_eq_sum (p : Config.Params) (blk : Nat → Int) (m : Nat) :
    firImpulse p blk m = ∑ n ∈ Finset.range (2 * p.t - 1), impulse p n * blk (8 * m + n) :=
  sum_map_range _ _

section
variable {p : Config.Params} {j : Nat}

theorem impulse_lower (h : j < p.t) : impulse p j = p.tap j := by
  rw [impulse, Nat.min_eq_left (by omega)]

theorem impulse_upper (h : j < p.t) : impulse p (2 * (p.t - 1) - j) = p.tap j := by
  have hmin : min (2 * (p.t - 1) - j) (2 * p.t - 2 - (2 * (p.t - 1) - j)) = j := by omega
  rw [impulse, hmin]

end

/-- Settles O38: the convolution's terms n and 2T - 2 - n have one coefficient, and the middle term is the centre tap. -/
theorem filterIsItsImpulseResponse : Obligations.FilterIsItsImpulseResponse := by
  intro p blk m ht
  have hlen : 2 * p.t - 1 = 2 * (p.t - 1) + 1 := by omega
  rw [firImpulse_eq_sum, hlen, sum_range_eq_pairs, impulse_lower (by omega), fir, sum_map_range,
    Nat.add_sub_assoc ht]
  refine congrArg (· + _) (Finset.sum_congr rfl fun j hj => ?_)
  have hjt := Finset.mem_range.1 hj
  rw [impulse_lower (by omega), impulse_upper (by omega), mul_add, Nat.add_sub_assoc (by omega)]

/-- `S_TAP` is the sum of the magnitudes of the 2T - 1 coefficients (R11). -/
theorem sTap_eq_sum_impulse {p : Config.Params} (ht : 1 ≤ p.t) :
    (p.sTap : Int) = ∑ n ∈ Finset.range (2 * p.t - 1), |impulse p n| := by
  have hlen : 2 * p.t - 1 = 2 * (p.t - 1) + 1 := by omega
  have hpair : ∀ j ∈ Finset.range (p.t - 1),
      |impulse p j| + |impulse p (2 * (p.t - 1) - j)| = 2 * |p.tap j| := fun j hj => by
    have hjt := Finset.mem_range.1 hj
    rw [impulse_lower (by omega), impulse_upper (by omega), two_mul]
  rw [hlen, sum_range_eq_pairs, Finset.sum_congr rfl hpair, impulse_lower (by omega), ← Finset.mul_sum,
    ← sum_map_range, Config.Params.sTap]
  simp [Function.comp_def]

/-! What the filter reads (R87) and its bound (R89). -/

theorem waveLen_eq (p : Config.Params) : p.waveLen = (4000 - 2 * p.t + 7) / 8 := rfl

theorem one_le_t {p : Config.Params} (h : p.wf = true) : 1 ≤ p.t := by
  simp only [Config.Params.wf, Config.Params.lengthOk, Bool.and_eq_true, decide_eq_true_eq, and_assoc] at h
  obtain ⟨ht, _⟩ := h
  exact ht

theorem sTap_bound {p : Config.Params} (h : p.wf = true) : 5 * 512 * p.sTap < 2 ^ 31 := by
  simp only [Config.Params.wf, Config.Params.tapsOk, Bool.and_eq_true, decide_eq_true_eq, and_assoc] at h
  obtain ⟨_, _, hbound, _⟩ := h
  exact hbound

/-- Settles O39: the convolution's 2T - 1 terms read the samples from 8m on, and 8m is below N - 2T. -/
theorem filterReadsInsideTheBlock : Obligations.FilterReadsInsideTheBlock := by
  intro p blk blk' m hp hm hagree
  have ht := one_le_t hp
  rw [waveLen_eq] at hm
  rw [filterIsItsImpulseResponse p blk m ht, filterIsItsImpulseResponse p blk' m ht, firImpulse_eq_sum,
    firImpulse_eq_sum]
  refine Finset.sum_congr rfl fun n hn => ?_
  have hnt := Finset.mem_range.1 hn
  rw [hagree (8 * m + n) (by omega) (by omega) (by omega)]

/-- A signed 32-bit number is read back from the word it is narrowed to (R17). -/
theorem to32_toInt {x : Int} (h0 : -2 ^ 31 ≤ x) (h : x < 2 ^ 31) : (to32 x).toInt = x :=
  BitVec.toInt_ofInt_eq_self (by decide) h0 h

/-- Every term is at most its coefficient's magnitude times 512. -/
theorem abs_fir_le {p : Config.Params} {blk : Nat → Int} (ht : 1 ≤ p.t) (hblk : ∀ j, -512 ≤ blk j ∧ blk j ≤ 511)
    (m : Nat) : |fir p blk m| ≤ 512 * (p.sTap : Int) := by
  have hterm : ∀ n ∈ Finset.range (2 * p.t - 1), |impulse p n * blk (8 * m + n)| ≤ 512 * |impulse p n| :=
    fun n _ => by
      obtain ⟨hlo, hhi⟩ := hblk (8 * m + n)
      rw [abs_mul, mul_comm]
      exact mul_le_mul_of_nonneg_right (abs_le.2 ⟨hlo, by omega⟩) (abs_nonneg _)
  calc |fir p blk m|
      = |∑ n ∈ Finset.range (2 * p.t - 1), impulse p n * blk (8 * m + n)| := by
        rw [filterIsItsImpulseResponse p blk m ht, firImpulse_eq_sum]
    _ ≤ ∑ n ∈ Finset.range (2 * p.t - 1), |impulse p n * blk (8 * m + n)| := Finset.abs_sum_le_sum_abs _ _
    _ ≤ ∑ n ∈ Finset.range (2 * p.t - 1), 512 * |impulse p n| := Finset.sum_le_sum hterm
    _ = 512 * (p.sTap : Int) := by rw [← Finset.mul_sum, sTap_eq_sum_impulse ht]

/-- Settles O40: the bound on an output, with R11's bound on `S_TAP`, leaves it inside the signed 32-bit word. -/
theorem filterOutputsFitTheWord : Obligations.FilterOutputsFitTheWord := by
  intro p blk m hp hblk
  have habs := abs_fir_le (one_le_t hp) hblk m
  have hsTap := sTap_bound hp
  obtain ⟨hlo, hhi⟩ := abs_le.1 habs
  exact ⟨habs, by omega, to32_toInt (by omega) (by omega)⟩

/-! The extremes (R90) and the commit (R91). -/

section
variable {p : Config.Params} (hp : p.wf = true)
include hp

/-- `peakLow` is an output below L, and no output below L is less. -/
theorem firPeakLow_spec (blk : Nat → Int) :
    (∃ m, m < p.waveLen ∧ fir p blk m = firPeakLow p blk) ∧ ∀ m, m < p.waveLen → firPeakLow p blk ≤ fir p blk m := by
  have hL := (waveLen_bounds hp).1
  obtain ⟨⟨m, hm, hattained⟩, hleast⟩ := leastUpTo_spec (fir p blk) (p.waveLen - 1)
  exact ⟨⟨m, by omega, hattained.symm⟩, fun k hk => hleast k (by omega)⟩

/-- `peakHigh` is an output below L, and no output below L is greater. -/
theorem firPeakHigh_spec (blk : Nat → Int) :
    (∃ m, m < p.waveLen ∧ fir p blk m = firPeakHigh p blk)
      ∧ ∀ m, m < p.waveLen → fir p blk m ≤ firPeakHigh p blk := by
  have hL := (waveLen_bounds hp).1
  obtain ⟨⟨m, hm, hattained⟩, hgreatest⟩ := greatestUpTo_spec (fir p blk) (p.waveLen - 1)
  exact ⟨⟨m, by omega, hattained.symm⟩, fun k hk => hgreatest k (by omega)⟩

/-- Every filter output of a block held in SAMPLE is exact in its word (R89). -/
theorem State.fir_toInt (s : State) (m : Nat) : (to32 (fir p s.block m)).toInt = fir p s.block m := by
  obtain ⟨_, _, hexact⟩ := filterOutputsFitTheWord p s.block m hp s.block_bounds
  exact hexact

/-- The committed extremes are exact: each is one of the outputs. -/
theorem commitFir_peakLow_toInt (s : State) : (commitFir p s).peakLow.toInt = firPeakLow p s.block := by
  obtain ⟨⟨m, _, hattained⟩, _⟩ := firPeakLow_spec hp s.block
  rw [commitFir, ← hattained, s.fir_toInt hp]

theorem commitFir_peakHigh_toInt (s : State) : (commitFir p s).peakHigh.toInt = firPeakHigh p s.block := by
  obtain ⟨⟨m, _, hattained⟩, _⟩ := firPeakHigh_spec hp s.block
  rw [commitFir, ← hattained, s.fir_toInt hp]

theorem commitFir_waveValue {s : State} (h : s.mem.wf = true) {m : Nat} (hm : m < p.waveLen) :
    (commitFir p s).waveValue m = fir p s.block m := by
  have hword : (commitFir p s).mem.readWord (waveOffset m) = to32 (fir p s.block m) :=
    storeWave_readWord (fir p s.block) h hm
  rw [State.waveValue, hword, s.fir_toInt hp]

end

theorem commitFir_waveLoaded (s : State) : waveLoaded (commitFir Config.hw.params s) := by
  intro k hk
  show (storeWave _ _ s).waveValid.getLsbD k = true
  rw [storeWave_valid _ s (waveLen_bounds Config.hw.ok).2, decide_eq_true hk, Bool.or_true]

theorem commitFir_readByte_outsideWave (s : State) {a : Nat} (h : outsideWave a) :
    (commitFir Config.hw.params s).mem.readByte a = s.mem.readByte a :=
  storeWave_readByte _ _ s h

/-- Settles O21: the completion is the filter commit, which ends in STATUS alone. -/
theorem filterCompletes : Obligations.FilterCompletes := by
  intro s hb hp hl hwf
  have hok := Config.hw.ok
  have hwave : ∀ m, m < Config.hw.params.waveLen →
      ((commitFilter s).finish .filter).waveValue m = fir Config.hw.params s.block m := fun m hm =>
    commitFir_waveValue hok hwf hm
  have hlow : (commitFilter s).peakLow.toInt = firPeakLow Config.hw.params s.block := commitFir_peakLow_toInt hok s
  have hhigh : (commitFilter s).peakHigh.toInt = firPeakHigh Config.hw.params s.block := commitFir_peakHigh_toInt hok s
  obtain ⟨⟨kl, hkl, hkleq⟩, hleast⟩ := firPeakLow_spec hok s.block
  obtain ⟨⟨kh, hkh, hkheq⟩, hgreatest⟩ := firPeakHigh_spec hok s.block
  refine ⟨(commitFilter s).finish .filter, exec_of_blockLoaded hb hp hl nofun, ?_, ?_, hwave, commitFir_waveLoaded s,
    fun m hm => ?_, ⟨kl, hkl, ?_⟩, ⟨kh, hkh, ?_⟩, fun a ha => commitFir_readByte_outsideWave s ha⟩
  · rw [State.finish_status, commitFilter, commitFir_eq]
    exact completedStatus_of _ s.status
  · rw [commitFilter, commitFir_eq]
    rfl
  · rw [hwave m hm, State.finish_peakLow, State.finish_peakHigh, hlow, hhigh]
    exact ⟨hleast m hm, hgreatest m hm⟩
  · rw [hwave kl hkl, State.finish_peakLow, hlow, hkleq]
  · rw [hwave kh hkh, State.finish_peakHigh, hhigh, hkheq]

end Sys2Proof.Machine
end

section
/-! SUPPORT. The parts of the bit synchroniser: the thresholds (R94), the extremum test (R97) and the check of a word
(R100). -/

namespace Sys2Proof.Machine

/-! The thresholds (R94). -/

theorem threshold_of_nonneg {x : Int} (h : 0 ≤ x) : threshold x = x * 5 / 16 :=
  Int.tdiv_eq_ediv_of_nonneg (mul_nonneg h (by decide))

/-- The division truncates, so the threshold is an odd function. -/
theorem threshold_neg (x : Int) : threshold (-x) = -threshold x := by
  rw [threshold, tdiv, neg_mul, Int.neg_tdiv]
  rfl

theorem threshold_of_neg {x : Int} (h : x < 0) : threshold x = -(-x * 5 / 16) := by
  rw [← threshold_of_nonneg (by omega : 0 ≤ -x), threshold_neg, neg_neg]

/-- On each side of 0 the threshold is a floor or a negated floor, and 0 separates the two sides. -/
theorem threshold_mono {x y : Int} (h : x ≤ y) : threshold x ≤ threshold y := by
  rcases lt_or_ge x 0 with hx | hx <;> rcases lt_or_ge y 0 with hy | hy
  · rw [threshold_of_neg hx, threshold_of_neg hy]
    omega
  · rw [threshold_of_neg hx, threshold_of_nonneg hy]
    omega
  · omega
  · rw [threshold_of_nonneg hx, threshold_of_nonneg hy]
    omega

/-- Settles O41: the two forms of the quotient, and its monotonicity. -/
theorem thresholdTruncatesTowardZero : Obligations.ThresholdTruncatesTowardZero :=
  ⟨fun _ => threshold_of_nonneg, fun _ => threshold_of_neg, rfl, fun _ _ => threshold_mono⟩

/-! The extremum test (R96, R97). -/

/-- Settles O42: a mark is above its right neighbour, a space below it. -/
theorem markAndSpaceExclude : Obligations.MarkAndSpaceExclude := by
  rintro x base k ⟨hmark, hspace⟩
  obtain ⟨_, _, _, habove⟩ := of_decide_eq_true hmark
  obtain ⟨_, _, _, hbelow⟩ := of_decide_eq_true hspace
  exact absurd habove (lt_asymm hbelow)

/-! The check of a word (R100). -/

/-- The 8 newest bits are the quotient by 2^23, the 8 oldest the remainder by 256. -/
theorem repeatTest_iff (word : BitVec 31) :
    word.extractLsb' 0 8 = word.extractLsb' 23 8 ↔ word.toNat % 256 = word.toNat / 2 ^ 23 := by
  have hlt := word.isLt
  rw [← BitVec.toNat_inj, BitVec.extractLsb'_toNat, BitVec.extractLsb'_toNat, Nat.shiftRight_zero,
    Nat.shiftRight_eq_div_pow, Nat.mod_eq_of_lt (by omega : word.toNat / 2 ^ 23 < 2 ^ 8)]

/-- Settles O47: the four tests of the check, each in arithmetic form. -/
theorem checkIsTheFourTests : Obligations.CheckIsTheFourTests := by
  intro p word
  have hdata : (word.setWidth 23).setWidth 12 = word.setWidth 12 := BitVec.setWidth_setWidth_of_le word (by decide)
  simp only [syncCheck, golayValid, Bool.and_eq_true, bne_iff_ne, beq_iff_eq, and_assoc, repeatTest_iff, hdata]
  rfl

end Sys2Proof.Machine
end

section
/-! SUPPORT. One pass of the bit synchroniser (R98), said once by the edge it takes, and what every run of passes keeps:
the counters (R104), the indices read (R103), the spacing of the bit completions (R105). -/

namespace Sys2Proof.Machine

/-! The edge searches of one pass (R98). -/

/-- The edge on the current sample, if the window is open and the sample qualifies (R98). -/
def earlyEdge (x : SyncInput) (st : SyncState) : Option Bool :=
  if inWindow st.count then qual x st.prevBaseline st.i else none

section
variable {x : SyncInput} {st : SyncState}

/-- The table writes the early edge out (R99). -/
theorem earlyEdge_eq (x : SyncInput) (st : SyncState) :
    earlyEdge x st = if inWindow st.count then qual x st.prevBaseline st.i else none := rfl

theorem earlyEdge_of_inWindow (h : inWindow st.count = true) : earlyEdge x st = qual x st.prevBaseline st.i := if_pos h

theorem earlyEdge_of_not_inWindow (h : ¬ inWindow st.count = true) : earlyEdge x st = none := if_neg h

theorem inWindow_of_earlyEdge {b : Bool} (h : earlyEdge x st = some b) : inWindow st.count = true := by
  by_contra hw
  rw [earlyEdge_of_not_inWindow hw] at h
  cases h

end

section
variable {x : SyncInput} {st : SyncState} {b : Bool}

theorem seekEarly_of_some (h : earlyEdge x st = some b) :
    seekEarly x st = ({ st with bit := b, count := 0 }, true) := by
  have hw := inWindow_of_earlyEdge h
  rw [earlyEdge_of_inWindow hw] at h
  refine (if_pos hw).trans ?_
  rw [h]

theorem seekEarly_of_none (h : earlyEdge x st = none) : seekEarly x st = (st, false) := by
  by_cases hw : inWindow st.count = true
  · rw [earlyEdge_of_inWindow hw] at h
    refine (if_pos hw).trans ?_
    rw [h]
  · exact if_neg hw

theorem seekEdges_eq (x : SyncInput) (st : SyncState) :
    seekEdges x st = if !(seekEarly x st).2 && (seekEarly x st).1.count % 8 == 0
      then seekOntime x (seekEarly x st).1 else (seekEarly x st).1 := rfl

theorem seekEdges_of_early (h : earlyEdge x st = some b) : seekEdges x st = { st with bit := b, count := 0 } := by
  rw [seekEdges_eq, seekEarly_of_some h]
  rfl

theorem seekEdges_of_onTime (h : earlyEdge x st = none) (hc : st.count % 8 = 0) :
    seekEdges x st = seekOntime x st := by
  rw [seekEdges_eq, seekEarly_of_none h]
  exact if_pos (beq_iff_eq.2 hc)

theorem seekEdges_of_idle (h : earlyEdge x st = none) (hc : st.count % 8 ≠ 0) : seekEdges x st = st := by
  rw [seekEdges_eq, seekEarly_of_none h]
  exact if_neg fun hb => hc (beq_iff_eq.1 hb)

theorem seekOntime_eq (x : SyncInput) (st : SyncState) :
    seekOntime x st
      = (qual x st.prevBaseline (st.i + 1)).elim st fun b => { st with i := st.i + 1, bit := b, count := 0 } := by
  rw [seekOntime]
  cases qual x st.prevBaseline (st.i + 1) <;> rfl

theorem seekOntime_of_some (h : qual x st.prevBaseline (st.i + 1) = some b) :
    seekOntime x st = { st with i := st.i + 1, bit := b, count := 0 } := by
  rw [seekOntime_eq, h]
  rfl

theorem seekOntime_of_none (h : qual x st.prevBaseline (st.i + 1) = none) : seekOntime x st = st := by
  rw [seekOntime_eq, h]
  rfl

end

theorem inWindow_iff (c : Nat) : inWindow c = true ↔ c % 8 = 6 ∨ c % 8 = 7 ∨ c % 8 = 0 := by
  simp only [inWindow, List.contains_eq_mem, List.mem_cons, List.not_mem_nil, or_false, Bool.or_eq_true,
    decide_eq_true_eq, beq_iff_eq, Config.cell]
  omega

/-- What the edge searches can do: take the current sample in the window, take the next one on time, or take none. -/
theorem seekEdges_cases (x : SyncInput) (st : SyncState) :
    (inWindow st.count = true ∧ ∃ b, seekEdges x st = { st with bit := b, count := 0 })
    ∨ (st.count % 8 = 0 ∧ ∃ b, seekEdges x st = { st with i := st.i + 1, bit := b, count := 0 })
    ∨ seekEdges x st = st := by
  cases he : earlyEdge x st with
  | some b => exact .inl ⟨inWindow_of_earlyEdge he, b, seekEdges_of_early he⟩
  | none =>
    by_cases hc : st.count % 8 = 0
    · rw [seekEdges_of_onTime he hc]
      cases hq : qual x st.prevBaseline (st.i + 1) with
      | some b => exact .inr (.inl ⟨hc, b, seekOntime_of_some hq⟩)
      | none => exact .inr (.inr (seekOntime_of_none hq))
    · exact .inr (.inr (seekEdges_of_idle he hc))

/-! The bit completion of one pass (R98). -/

/-- The pass has a bit completion: its searches leave a count at the cell boundary (R98). -/
abbrev completes (x : SyncInput) (st : SyncState) : Prop := (seekEdges x st).count % 8 = 0

section
variable {x : SyncInput} {st : SyncState}

theorem syncPass_of_completes (h : completes x st) : syncPass x st = bitComplete x (seekEdges x st) := if_pos h

theorem syncPassFinds_eq (x : SyncInput) (st : SyncState) :
    syncPassFinds x st = ((seekEdges x st).count % 8 == 0 && syncAccepts x (syncPass x st)) := rfl

theorem syncPassFinds_of_completes (h : completes x st) :
    syncPassFinds x st = syncAccepts x (bitComplete x (seekEdges x st)) := by
  rw [syncPassFinds_eq, syncPass_of_completes h, beq_iff_eq.2 h, Bool.true_and]

/-- An edge resets the count, so a pass without a bit completion has taken none. -/
theorem seekEdges_of_not_completes (h : ¬ completes x st) : seekEdges x st = st := by
  rcases seekEdges_cases x st with ⟨_, b, he⟩ | ⟨_, b, he⟩ | he
  · exact absurd (congrArg (·.count % 8) he) h
  · exact absurd (congrArg (·.count % 8) he) h
  · exact he

/-- A count at the cell boundary stays there: no edge leaves it as it is, an edge makes it 0. -/
theorem completes_of_count (x : SyncInput) (hc : st.count % 8 = 0) : completes x st := by
  by_contra h
  exact h (show (seekEdges x st).count % 8 = 0 by rwa [seekEdges_of_not_completes h])

theorem syncPass_of_not_completes (h : ¬ completes x st) : syncPass x st = st :=
  (if_neg h).trans (seekEdges_of_not_completes h)

theorem syncPassFinds_of_not_completes (h : ¬ completes x st) : syncPassFinds x st = false := by
  rw [syncPassFinds_eq, beq_eq_false_iff_ne.2 h, Bool.false_and]

/-- A bit completion leaves the index and the count as the searches have left them. -/
theorem syncPass_i (x : SyncInput) (st : SyncState) : (syncPass x st).i = (seekEdges x st).i := by
  by_cases h : completes x st
  · rw [syncPass_of_completes h]
    rfl
  · rw [syncPass_of_not_completes h, seekEdges_of_not_completes h]

theorem syncPass_count (x : SyncInput) (st : SyncState) : (syncPass x st).count = (seekEdges x st).count := by
  by_cases h : completes x st
  · rw [syncPass_of_completes h]
    rfl
  · rw [syncPass_of_not_completes h, seekEdges_of_not_completes h]

theorem syncAdvance_i (st : SyncState) : (syncAdvance st).i = st.i + 1 := rfl

theorem syncAdvance_count (st : SyncState) : (syncAdvance st).count = st.count + 1 := rfl

theorem syncAdvance_bits (st : SyncState) : (syncAdvance st).bits = st.bits := rfl

end

/-! The counters (R104). -/

section
variable (x : SyncInput) (st : SyncState)

theorem seekEdges_i : (seekEdges x st).i = st.i ∨ (seekEdges x st).i = st.i + 1 := by
  rcases seekEdges_cases x st with ⟨_, b, he⟩ | ⟨_, b, he⟩ | he <;> rw [he]
  · exact .inl rfl
  · exact .inr rfl
  · exact .inl rfl

theorem seekEdges_count_le : (seekEdges x st).count ≤ st.count := by
  rcases seekEdges_cases x st with ⟨_, b, he⟩ | ⟨_, b, he⟩ | he <;> rw [he]
  · exact Nat.zero_le _
  · exact Nat.zero_le _

theorem seekEdges_bits : (seekEdges x st).bits = st.bits := by
  rcases seekEdges_cases x st with ⟨_, b, he⟩ | ⟨_, b, he⟩ | he <;> rw [he]

theorem syncPass_bits_le : (syncPass x st).bits ≤ st.bits + 1 := by
  by_cases hc : completes x st
  · rw [syncPass_of_completes hc]
    exact Nat.succ_le_succ (seekEdges_bits x st).le
  · rw [syncPass_of_not_completes hc]
    omega

theorem syncAdvance_syncPass_i :
    (syncAdvance (syncPass x st)).i = st.i + 1 ∨ (syncAdvance (syncPass x st)).i = st.i + 2 := by
  have hi := seekEdges_i x st
  rw [syncAdvance_i, syncPass_i]
  omega

end

theorem syncAfter_succ (x : SyncInput) (n : Nat) :
    syncAfter x (n + 1) = syncAdvance (syncPass x (syncAfter x n)) := rfl

/-- After n passes each counter is at most n, and the read index is beyond n. -/
theorem syncAfter_bounds (x : SyncInput) (n : Nat) :
    (syncAfter x n).bits ≤ n ∧ (syncAfter x n).count ≤ n ∧ n < (syncAfter x n).i := by
  induction n with
  | zero => exact ⟨le_rfl, le_rfl, Nat.one_pos⟩
  | succ n ih =>
    obtain ⟨hbits, hcount, hi⟩ := ih
    have hbitsPass := syncPass_bits_le x (syncAfter x n)
    have hcountSeek := seekEdges_count_le x (syncAfter x n)
    have hnext := syncAdvance_syncPass_i x (syncAfter x n)
    rw [syncAfter_succ, syncAdvance_bits, syncAdvance_count, syncPass_count]
    omega

section
variable {x : SyncInput} {st : SyncState}

theorem syncLoop_of_past (fuel : Nat) (h : 464 < st.i) : syncLoop x fuel st = none := by
  cases fuel with
  | zero => rfl
  | succ fuel => exact if_neg (Nat.not_le.2 h)

theorem syncLoop_of_finds (fuel : Nat) (hi : st.i ≤ 464) (h : syncPassFinds x st = true) :
    syncLoop x (fuel + 1) st = some (syncPass x st) := (if_pos hi).trans (if_pos h)

theorem syncLoop_of_not_finds (fuel : Nat) (hi : st.i ≤ 464) (h : syncPassFinds x st = false) :
    syncLoop x (fuel + 1) st = syncLoop x fuel (syncAdvance (syncPass x st)) :=
  (if_pos hi).trans (if_neg (Bool.eq_false_iff.1 h))

end

/-- More passes than there are indices left change nothing: each pass uses up an index. -/
theorem syncLoop_fuel_irrel (x : SyncInput) {n m : Nat} {st : SyncState} (hn : 465 ≤ st.i + n)
    (hm : 465 ≤ st.i + m) : syncLoop x n st = syncLoop x m st := by
  induction n generalizing m st with
  | zero => rw [syncLoop_of_past 0 (by omega), syncLoop_of_past m (by omega)]
  | succ n ih =>
    rcases Nat.lt_or_ge 464 st.i with hi | hi
    · rw [syncLoop_of_past _ hi, syncLoop_of_past _ hi]
    · obtain ⟨m, rfl⟩ : ∃ k, m = k + 1 := Nat.exists_eq_add_one.2 (by omega)
      have hnext := syncAdvance_syncPass_i x st
      cases hf : syncPassFinds x st with
      | true => rw [syncLoop_of_finds n hi hf, syncLoop_of_finds m hi hf]
      | false =>
        rw [syncLoop_of_not_finds n hi hf, syncLoop_of_not_finds m hi hf]
        exact ih (by omega) (by omega)

/-- Settles O45: the rise of the index in one pass, the bounds after n passes, and the fuel that suffices. -/
theorem synchroniserCountersAreBounded : Obligations.SynchroniserCountersAreBounded := by
  intro x
  refine ⟨syncAdvance_syncPass_i x, fun n hn => ?_, ?_, fun n hn => ?_⟩
  · obtain ⟨hbits, hcount, _⟩ := syncAfter_bounds x n
    omega
  · obtain ⟨_, _, hi⟩ := syncAfter_bounds x 464
    exact hi
  · have hstart : syncInit.i = 1 := rfl
    exact syncLoop_fuel_irrel x (by omega) (by omega)

/-! The indices read (R103). -/

/-- The same run on another waveform. -/
def SyncInput.withWave (x : SyncInput) (w : Nat → Int) : SyncInput := { x with wave := w }

/-- The extremum test reads its index and the two beside it. -/
theorem qual_withWave {x : SyncInput} {w : Nat → Int} {k : Nat} (base : Int)
    (h : ∀ j, j ≤ k + 1 → x.wave j = w j) : qual (x.withWave w) base k = qual x base k := by
  have hbefore := h (k - 1) (by omega)
  have hat := h k (by omega)
  have hafter := h (k + 1) le_rfl
  have hmark : qualMark (x.withWave w) base k = qualMark x base k := by
    rw [qualMark, qualMark, hbefore, hat, hafter]
    rfl
  have hspace : qualSpace (x.withWave w) base k = qualSpace x base k := by
    rw [qualSpace, qualSpace, hbefore, hat, hafter]
    rfl
  rw [qual, qual, hmark, hspace]

theorem seekEarly_i (x : SyncInput) (st : SyncState) : (seekEarly x st).1.i = st.i := by
  cases he : earlyEdge x st with
  | some b => rw [seekEarly_of_some he]
  | none => rw [seekEarly_of_none he]

section
variable {x : SyncInput} {w : Nat → Int} (hw : ∀ j, j ≤ 466 → x.wave j = w j) {st : SyncState} (hi : st.i ≤ 464)
include hw hi

theorem seekEarly_withWave : seekEarly (x.withWave w) st = seekEarly x st := by
  rw [seekEarly, seekEarly, qual_withWave _ fun j hj => hw j (by omega)]

theorem seekOntime_withWave : seekOntime (x.withWave w) st = seekOntime x st := by
  rw [seekOntime_eq, seekOntime_eq, qual_withWave _ fun j hj => hw j (by omega)]

theorem seekEdges_withWave : seekEdges (x.withWave w) st = seekEdges x st := by
  have hle : (seekEarly x st).1.i ≤ 464 := (seekEarly_i x st).symm ▸ hi
  rw [seekEdges_eq, seekEdges_eq, seekEarly_withWave hw hi, seekOntime_withWave hw hle]

/-- The new baseline is read at most one sample beyond the index of the pass. -/
theorem syncPass_withWave : syncPass (x.withWave w) st = syncPass x st := by
  have hseek := seekEdges_withWave hw hi
  have hle := seekEdges_i x st
  have hbase : x.wave (seekEdges x st).i = w (seekEdges x st).i := hw _ (by omega)
  have hbit : bitComplete (x.withWave w) (seekEdges x st) = bitComplete x (seekEdges x st) :=
    congrArg (fun base => { bitComplete x (seekEdges x st) with prevBaseline := base }) hbase.symm
  have hcell : completes (x.withWave w) st ↔ completes x st :=
    iff_of_eq (congrArg (fun e : SyncState => e.count % 8 = 0) hseek)
  by_cases hc : completes x st
  · rw [syncPass_of_completes hc, syncPass_of_completes (hcell.2 hc), hseek, hbit]
  · rw [syncPass_of_not_completes hc, syncPass_of_not_completes (mt hcell.1 hc)]

theorem syncPassFinds_withWave : syncPassFinds (x.withWave w) st = syncPassFinds x st := by
  rw [syncPassFinds_eq, syncPassFinds_eq, seekEdges_withWave hw hi, syncPass_withWave hw hi]
  rfl

end

theorem syncLoop_withWave {x : SyncInput} {w : Nat → Int} (hw : ∀ j, j ≤ 466 → x.wave j = w j) (fuel : Nat)
    (st : SyncState) : syncLoop (x.withWave w) fuel st = syncLoop x fuel st := by
  induction fuel generalizing st with
  | zero => rfl
  | succ fuel ih =>
    rcases Nat.lt_or_ge 464 st.i with hi | hi
    · rw [syncLoop_of_past _ hi, syncLoop_of_past _ hi]
    · have hpass := syncPass_withWave hw hi
      have hfinds := syncPassFinds_withWave hw hi
      cases hf : syncPassFinds x st with
      | true => rw [syncLoop_of_finds fuel hi (hfinds.trans hf), syncLoop_of_finds fuel hi hf, hpass]
      | false => rw [syncLoop_of_not_finds fuel hi (hfinds.trans hf), syncLoop_of_not_finds fuel hi hf, hpass, ih]

/-- Settles O44: a pass reads at most two samples beyond its index, which is at most 464. -/
theorem synchroniserReadsInsideTheWaveform : Obligations.SynchroniserReadsInsideTheWaveform := by
  intro p w w' peakLow peakHigh invMask
  refine ⟨fun hagree => ?_, fun hp => ?_⟩
  · have hloop := syncLoop_withWave (x := syncInput p w peakLow peakHigh) hagree syncMaxPasses syncInit
    rw [recoverBits, recoverBits, ← hloop]
    rfl
  · obtain ⟨hL, _⟩ := waveLen_bounds hp
    omega

/-! The spacing of the bit completions (R105). -/

section
variable {x : SyncInput} {st : SyncState} (hi : st.i ≤ 464)
include hi

theorem completionsFrom_of_completes (fuel : Nat) (h : completes x st) :
    completionsFrom x (fuel + 1) st = (seekEdges x st).i
      :: (if syncPassFinds x st then [] else completionsFrom x fuel (syncAdvance (syncPass x st))) := by
  refine (if_pos hi).trans ?_
  rw [if_pos h, List.singleton_append]

theorem completionsFrom_of_not_completes (fuel : Nat) (h : ¬ completes x st) :
    completionsFrom x (fuel + 1) st = completionsFrom x fuel (syncAdvance (syncPass x st)) := by
  refine (if_pos hi).trans ?_
  rw [if_neg h, List.nil_append, if_neg (Bool.eq_false_iff.1 (syncPassFinds_of_not_completes h))]

end

theorem completionsFrom_of_past {x : SyncInput} {st : SyncState} (fuel : Nat) (h : 464 < st.i) :
    completionsFrom x fuel st = [] := by
  cases fuel with
  | zero => rfl
  | succ fuel => exact if_neg (Nat.not_le.2 h)

/-- Between two completions: the last one was at index p, at most 8 samples ago, and the count shows how many (R105). -/
def SyncState.cellFrom (p : Nat) (st : SyncState) : Prop :=
  p < st.i ∧ st.i ≤ p + 8 ∧ st.count % 8 = (st.i - p) % 8

/-- The spacings of R105. -/
def cellSpacing (p q : Nat) : Prop := q = p + 6 ∨ q = p + 7 ∨ q = p + 8 ∨ q = p + 9

theorem cellSpacing_of_le {p q : Nat} (hlo : p + 6 ≤ q) (hhi : q ≤ p + 9) : cellSpacing p q :=
  show _ ∨ _ ∨ _ ∨ _ by omega

section
variable {x : SyncInput} {st : SyncState}

theorem cellFrom_of_completes (h : completes x st) :
    (syncAdvance (syncPass x st)).cellFrom (seekEdges x st).i := by
  have hcount : (syncPass x st).count % 8 = 0 := (syncPass_count x st).symm ▸ h
  have hi := syncPass_i x st
  refine ⟨?_, ?_, ?_⟩ <;> simp only [syncAdvance_i, syncAdvance_count] <;> omega

/-- At the eighth sample there is a completion whatever the waveform, so without one the cell goes on. -/
theorem cellFrom_of_not_completes {p : Nat} (hp : st.cellFrom p) (h : ¬ completes x st) :
    (syncAdvance (syncPass x st)).cellFrom p := by
  obtain ⟨hlo, hhi, hcount⟩ := hp
  have hno : st.count % 8 ≠ 0 := fun hc => h (completes_of_count x hc)
  rw [syncPass_of_not_completes h]
  refine ⟨?_, ?_, ?_⟩ <;> simp only [syncAdvance_i, syncAdvance_count] <;> omega

/-- A completion is early at the sixth or seventh sample, or on time or by free run at the eighth, or one beyond. -/
theorem cellSpacing_of_completes {p : Nat} (hp : st.cellFrom p) (h : completes x st) :
    cellSpacing p (seekEdges x st).i := by
  obtain ⟨hlo, hhi, hcount⟩ := hp
  rcases seekEdges_cases x st with ⟨hwin, b, he⟩ | ⟨hzero, b, he⟩ | he
  · rw [inWindow_iff] at hwin
    have hi : (seekEdges x st).i = st.i := by rw [he]
    exact cellSpacing_of_le (by omega) (by omega)
  · have hi : (seekEdges x st).i = st.i + 1 := by rw [he]
    exact cellSpacing_of_le (by omega) (by omega)
  · have hfree : st.count % 8 = 0 := he ▸ h
    rw [he]
    exact cellSpacing_of_le (by omega) (by omega)

end

/-- From a completion at p on, every completion keeps the spacing to the one before. -/
theorem isChain_completionsFrom (x : SyncInput) (fuel : Nat) {p : Nat} {st : SyncState} (hp : st.cellFrom p) :
    (p :: completionsFrom x fuel st).IsChain cellSpacing := by
  induction fuel generalizing p st with
  | zero => exact .singleton p
  | succ fuel ih =>
    rcases Nat.lt_or_ge 464 st.i with hi | hi
    · rw [completionsFrom_of_past _ hi]
      exact .singleton p
    · by_cases hc : completes x st
      · rw [completionsFrom_of_completes hi fuel hc]
        refine .cons_cons (cellSpacing_of_completes hp hc) ?_
        cases syncPassFinds x st with
        | true => exact .singleton _
        | false => exact ih (cellFrom_of_completes hc)
      · rw [completionsFrom_of_not_completes hi fuel hc]
        exact ih (cellFrom_of_not_completes hp hc)

/-- Settles O46: the first pass, at count 0, completes a bit, and from each completion on the cell is counted. -/
theorem completionsAreSixToNineApart : Obligations.CompletionsAreSixToNineApart := by
  rintro x _ rfl
  have hfirst := completes_of_count (st := syncInit) x rfl
  rw [show syncMaxPasses = 463 + 1 from rfl, completionsFrom_of_completes (by decide) 463 hfirst]
  refine ⟨fun p hp => ?_, ?_⟩
  · obtain rfl := Option.some.inj hp
    exact seekEdges_i x syncInit
  · cases syncPassFinds x syncInit with
    | true => exact .singleton _
    | false => exact isChain_completionsFrom x 463 (cellFrom_of_completes hfirst)

end Sys2Proof.Machine
end

section
/-! SUPPORT. The transition table (R99) does what the loop does (R98): a pass of the loop is at most five rows. -/

namespace Sys2Proof.Machine

variable {x : SyncInput} {invMask : BitVec 23}

/-! Runs of the table. -/

theorem fsmRun_zero (c : FsmState × SyncState) : fsmRun x invMask 0 c = c := rfl

theorem fsmRun_succ (n : Nat) (c : FsmState × SyncState) :
    fsmRun x invMask (n + 1) c = fsmRun x invMask n (fsmStep x invMask c) := rfl

theorem fsmRun_add (m n : Nat) (c : FsmState × SyncState) :
    fsmRun x invMask (m + n) c = fsmRun x invMask n (fsmRun x invMask m c) := by
  induction m generalizing c with
  | zero => rw [Nat.zero_add, fsmRun_zero]
  | succ m ih => rw [Nat.succ_add, fsmRun_succ, fsmRun_succ, ih]

theorem fsmRun_done (n : Nat) (r : Option (BitVec 23)) (st : SyncState) :
    fsmRun x invMask n (.done r, st) = (.done r, st) := by
  induction n with
  | zero => rfl
  | succ n ih => exact ih

/-- The second configuration is reached from the first within k rows. -/
def fsmReaches (x : SyncInput) (invMask : BitVec 23) (k : Nat) (c c' : FsmState × SyncState) : Prop :=
  ∃ n ≤ k, fsmRun x invMask n c = c'

theorem fsmReaches_refl (k : Nat) (c : FsmState × SyncState) : fsmReaches x invMask k c c :=
  ⟨0, Nat.zero_le k, rfl⟩

theorem fsmReaches_mono {k l : Nat} {c d : FsmState × SyncState} (hkl : k ≤ l) (h : fsmReaches x invMask k c d) :
    fsmReaches x invMask l c d := by
  obtain ⟨n, hn, hrun⟩ := h
  exact ⟨n, hn.trans hkl, hrun⟩

/-- One row, and then what is reached from there. -/
theorem fsmReaches_of_step {k : Nat} {c d e : FsmState × SyncState} (hstep : fsmStep x invMask c = d)
    (h : fsmReaches x invMask k d e) : fsmReaches x invMask (k + 1) c e := by
  subst hstep
  obtain ⟨n, hn, hrun⟩ := h
  exact ⟨n + 1, Nat.succ_le_succ hn, hrun⟩

/-! The rows, in the terms of the loop. -/

section
variable {st : SyncState}

theorem fsmStep_seekEarly_of_past (h : 464 < st.i) : fsmStep x invMask (.seekEarly, st) = (.done none, st) := if_pos h

section
variable (hi : st.i ≤ 464)
include hi

theorem fsmStep_seekEarly_of_early {b : Bool} (h : earlyEdge x st = some b) :
    fsmStep x invMask (.seekEarly, st) = (.bitComplete, seekEdges x st) := by
  rw [seekEdges_of_early h]
  refine (if_neg (Nat.not_lt.2 hi)).trans ?_
  rw [← earlyEdge_eq, h]

theorem fsmStep_seekEarly_of_onTime (h : earlyEdge x st = none) (hc : st.count % 8 = 0) :
    fsmStep x invMask (.seekEarly, st) = (.seekOntime, st) := by
  refine (if_neg (Nat.not_lt.2 hi)).trans ?_
  rw [← earlyEdge_eq, h]
  exact if_pos hc

theorem fsmStep_seekEarly_of_idle (h : earlyEdge x st = none) (hc : st.count % 8 ≠ 0) :
    fsmStep x invMask (.seekEarly, st) = (.advance, st) := by
  refine (if_neg (Nat.not_lt.2 hi)).trans ?_
  rw [← earlyEdge_eq, h]
  exact if_neg hc

end

theorem fsmStep_seekOntime (st : SyncState) :
    fsmStep x invMask (.seekOntime, st) = (.bitComplete, seekOntime x st) := by
  rw [fsmStep]
  cases hq : qual x st.prevBaseline (st.i + 1) with
  | some b => rw [seekOntime_of_some hq]
  | none => rw [seekOntime_of_none hq]

theorem fsmStep_bitComplete (st : SyncState) :
    fsmStep x invMask (.bitComplete, st) = (.check, bitComplete x st) := rfl

theorem fsmStep_check_of_accepts (h : syncAccepts x st = true) :
    fsmStep x invMask (.check, st) = (.done (some (syncResult invMask st)), st) := if_pos h

theorem fsmStep_check_of_not_accepts (h : syncAccepts x st = false) :
    fsmStep x invMask (.check, st) = (.advance, st) := if_neg (Bool.eq_false_iff.1 h)

theorem fsmStep_advance (st : SyncState) : fsmStep x invMask (.advance, st) = (.seekEarly, syncAdvance st) := rfl

end

/-! One pass, and the loop. -/

/-- Where the table stands after one pass of the loop: in DONE with the word found, or before the next pass. -/
def fsmAfterPass (x : SyncInput) (invMask : BitVec 23) (st : SyncState) : FsmState × SyncState :=
  if syncPassFinds x st then (.done (some (syncResult invMask (syncPass x st))), syncPass x st)
  else (.seekEarly, syncAdvance (syncPass x st))

section
variable {st : SyncState}

theorem fsmAfterPass_of_finds (h : syncPassFinds x st = true) :
    fsmAfterPass x invMask st = (.done (some (syncResult invMask (syncPass x st))), syncPass x st) := if_pos h

theorem fsmAfterPass_of_not_finds (h : syncPassFinds x st = false) :
    fsmAfterPass x invMask st = (.seekEarly, syncAdvance (syncPass x st)) := if_neg (Bool.eq_false_iff.1 h)

end

theorem fsmReaches_of_completes {st : SyncState} (h : completes x st) :
    fsmReaches x invMask 3 (.bitComplete, seekEdges x st) (fsmAfterPass x invMask st) := by
  refine fsmReaches_of_step (fsmStep_bitComplete _) ?_
  have hfinds := syncPassFinds_of_completes h
  cases ha : syncAccepts x (bitComplete x (seekEdges x st)) with
  | true =>
    rw [fsmAfterPass_of_finds (hfinds.trans ha), syncPass_of_completes h]
    exact fsmReaches_of_step (fsmStep_check_of_accepts ha) (fsmReaches_refl 1 _)
  | false =>
    rw [fsmAfterPass_of_not_finds (hfinds.trans ha), syncPass_of_completes h]
    exact fsmReaches_of_step (fsmStep_check_of_not_accepts ha)
      (fsmReaches_of_step (fsmStep_advance _) (fsmReaches_refl 0 _))

/-- A pass is four rows with an early edge, five on time or by free run, two without a completion (one less when the
word is found). -/
theorem fsmReaches_afterPass {st : SyncState} (hi : st.i ≤ 464) :
    fsmReaches x invMask 5 (.seekEarly, st) (fsmAfterPass x invMask st) := by
  cases he : earlyEdge x st with
  | some b =>
    have hbits : completes x st := congrArg (·.count % 8) (seekEdges_of_early he)
    exact fsmReaches_mono (by decide)
      (fsmReaches_of_step (fsmStep_seekEarly_of_early hi he) (fsmReaches_of_completes hbits))
  | none =>
    by_cases hc : st.count % 8 = 0
    · have hbits := fsmReaches_of_completes (invMask := invMask) (completes_of_count x hc)
      rw [seekEdges_of_onTime he hc] at hbits
      exact fsmReaches_of_step (fsmStep_seekEarly_of_onTime hi he hc)
        (fsmReaches_of_step (fsmStep_seekOntime st) hbits)
    · have hno : ¬ completes x st := fun h => hc (seekEdges_of_idle he hc ▸ h)
      rw [fsmAfterPass_of_not_finds (syncPassFinds_of_not_completes hno), syncPass_of_not_completes hno]
      exact fsmReaches_of_step (fsmStep_seekEarly_of_idle hi he hc)
        (fsmReaches_of_step (fsmStep_advance st) (fsmReaches_refl 3 _))

/-- Past the end the table is in DONE after one row. -/
theorem fsmRun_of_past {n : Nat} {st : SyncState} (hi : 464 < st.i) (hn : 1 ≤ n) :
    (fsmRun x invMask n (.seekEarly, st)).1 = .done none := by
  obtain ⟨n, rfl⟩ := Nat.exists_eq_add_one.2 hn
  rw [fsmRun_succ, fsmStep_seekEarly_of_past hi, fsmRun_done]

/-- From before a pass on, five rows for every pass of the loop and one to end it lead to the loop's result. -/
theorem fsmRun_seekEarly {fuel n : Nat} {st : SyncState} (hfuel : 465 ≤ st.i + fuel) (hn : 5 * fuel + 1 ≤ n) :
    (fsmRun x invMask n (.seekEarly, st)).1 = .done ((syncLoop x fuel st).map (syncResult invMask)) := by
  induction fuel generalizing n st with
  | zero =>
    rw [syncLoop_of_past 0 (by omega)]
    exact fsmRun_of_past (by omega) (by omega)
  | succ fuel ih =>
    rcases Nat.lt_or_ge 464 st.i with hi | hi
    · rw [syncLoop_of_past _ hi]
      exact fsmRun_of_past hi (by omega)
    · obtain ⟨k, hk, hrun⟩ := fsmReaches_afterPass (x := x) (invMask := invMask) hi
      have hnext := syncAdvance_syncPass_i x st
      rw [← Nat.add_sub_cancel' (by omega : k ≤ n), fsmRun_add, hrun]
      cases hf : syncPassFinds x st with
      | true =>
        rw [syncLoop_of_finds fuel hi hf, fsmAfterPass_of_finds hf, fsmRun_done]
        rfl
      | false =>
        rw [syncLoop_of_not_finds fuel hi hf, fsmAfterPass_of_not_finds hf]
        exact ih (by omega) (by omega)

/-- Settles O43: INIT is one row, and each of the 464 passes at most five. -/
theorem transitionTableIsTheAlgorithm : Obligations.TransitionTableIsTheAlgorithm := by
  intro p w peakLow peakHigh invMask st n hn
  obtain ⟨n, rfl⟩ : ∃ k, n = k + 1 := Nat.exists_eq_add_one.2 (by omega)
  have hpasses : syncMaxPasses = 464 := rfl
  have hstart : syncInit.i = 1 := rfl
  exact fsmRun_seekEarly (by omega) (by omega)

end Sys2Proof.Machine
end

section
/-! SUPPORT. The command RECOVER (R107): what its completion commits. -/

namespace Sys2Proof.Machine

/-- Bit 31 of DCS_RAW is SYNC_OK, below bit 23 stands the word (R37). -/
theorem packRaw_some_bit (v : BitVec 23) {b : Nat} (hb : b < 32) :
    (packRaw (some v)).getLsbD b = (decide (b = 31) || v.getLsbD b) := by
  have hok : (0x80000000#32).getLsbD b = decide (b = 31) := by
    revert b
    decide
  rw [packRaw, BitVec.getLsbD_or, hok, BitVec.getLsbD_setWidth, decide_eq_true hb, Bool.true_and]

/-- The fields of DCS_RAW for what the synchroniser returned (R37). -/
theorem packRaw_shows (r : Option (BitVec 23)) : dcsRawShows r (packRaw r) := by
  cases r with
  | none => exact ⟨rfl, nofun, rfl, fun _ => rfl⟩
  | some v =>
    refine ⟨(packRaw_some_bit v (by decide)).trans rfl, ?_, ?_, nofun⟩
    · intro u hu
      obtain rfl := Option.some.inj hu
      apply BitVec.eq_of_getLsbD_eq
      intro i hi
      have hne : i ≠ 31 := by omega
      rw [BitVec.getLsbD_extractLsb', Nat.zero_add, packRaw_some_bit v (by omega), decide_eq_true hi,
        decide_eq_false hne, Bool.true_and, Bool.false_or]
    · apply BitVec.eq_of_getLsbD_eq
      intro i hi
      have hne : 23 + i ≠ 31 := by omega
      rw [BitVec.getLsbD_extractLsb', packRaw_some_bit v (by omega), BitVec.getLsbD_of_ge v _ (by omega),
        decide_eq_false hne, Bool.or_false, Bool.and_false, BitVec.getLsbD_zero]

/-- Settles O22: with the waveform loaded the completion is RECOVER's commit, which writes DCS_RAW alone. -/
theorem recoverCompletes : Obligations.RecoverCompletes := by
  intro s hb hp hl
  have hready : ramReady .recover s := ⟨fun h => by simp [consumesBlock] at h, fun _ => hl⟩
  exact ⟨_, _, completedStatus_of _ s.status, packRaw_shows _, runCommand_pending hb hp hready⟩

end Sys2Proof.Machine
end

section
/-! SUPPORT. The Golay code for every choice of rows: the codeword as parity above data (R108), the valid words as the
encodings (R109), one flipped bit (R110); then the commands GOLAY_ENC (R112) and GOLAY_CHK (R113). -/

namespace Sys2Proof.Machine

/-! The parity (R108). -/

/-- Bit j of the XOR of the rows of the first n data bits counts, modulo 2, the set ones whose row has bit j. -/
theorem rowFold_getLsbD (p : Config.Params) (d : BitVec 12) (j n : Nat) :
    ((List.range n).foldl (fun acc b => if d.getLsbD b then acc ^^^ p.row b else acc) 0#11).getLsbD j =
      decide ((∑ b ∈ Finset.range n, if d.getLsbD b && (p.row b).getLsbD j then 1 else 0) % 2 = 1) := by
  induction n with
  | zero => simp
  | succ n ih =>
    rw [List.range_succ, List.foldl_concat, Finset.sum_range_succ]
    cases hd : d.getLsbD n with
    | false => simpa using ih
    | true =>
      cases hr : (p.row n).getLsbD j with
      | false => simpa [hr] using ih
      | true =>
        simp only [Bool.and_self, if_true, BitVec.getLsbD_xor, ih, hr, Bool.xor_true, ← decide_not]
        exact decide_eq_decide.2 (by omega)

/-- Bit j of the parity counts, modulo 2, the set data bits whose row has bit j. -/
theorem golayParity_getLsbD (p : Config.Params) (d : BitVec 12) (j : Nat) :
    (golayParity p d).getLsbD j =
      decide ((∑ b ∈ Finset.range 12, if d.getLsbD b && (p.row b).getLsbD j then 1 else 0) % 2 = 1) :=
  rowFold_getLsbD p d j 12

theorem golayParity_zero (p : Config.Params) : golayParity p 0#12 = 0#11 := by
  have h := golayParity_xor p 0#12 0#12
  rwa [BitVec.xor_self, BitVec.xor_self] at h

/-- The parity of a single data bit is its row. -/
theorem golayParity_twoPow (p : Config.Params) {b : Nat} (hb : b < 12) :
    golayParity p (BitVec.twoPow 12 b) = p.row b := by
  apply BitVec.eq_of_getLsbD_eq
  intro j _
  have hcount : ∀ i, (if (BitVec.twoPow 12 b).getLsbD i && (p.row i).getLsbD j then 1 else 0)
      = if b = i then (if (p.row i).getLsbD j then 1 else 0) else 0 := by
    intro i
    rcases eq_or_ne b i with rfl | h
    · simp [hb]
    · simp [BitVec.getLsbD_twoPow, h]
  simp only [golayParity_getLsbD, hcount, Finset.sum_ite_eq, Finset.mem_range, hb, if_true]
  cases (p.row b).getLsbD j <;> rfl

/-! The codeword (R108) and the valid words (R109). -/

theorem golayEncode_eq_append (p : Config.Params) (d : BitVec 12) : golayEncode p d = golayParity p d ++ d := by
  rw [golayEncode, ← BitVec.setWidth_append_eq_shiftLeft_setWidth_or, BitVec.setWidth_eq]

theorem golayEncode_data (p : Config.Params) (d : BitVec 12) : (golayEncode p d).extractLsb' 0 12 = d := by
  rw [golayEncode_eq_append, BitVec.extractLsb'_append_eq_right]

theorem golayEncode_parity (p : Config.Params) (d : BitVec 12) (j : Nat) :
    (golayEncode p d).getLsbD (12 + j) = (golayParity p d).getLsbD j := by
  rw [golayEncode_eq_append, BitVec.getLsbD_append, if_neg (by omega), Nat.add_sub_cancel_left]

/-- Settles O49: the codeword is the data below the parity, whose bits are known. -/
theorem codewordIsDataAndRowParity : Obligations.CodewordIsDataAndRowParity := fun p d =>
  ⟨golayEncode_data p d, fun j _ => (golayEncode_parity p d j).trans (golayParity_getLsbD p d j)⟩

theorem golayEncode_injective (p : Config.Params) : Function.Injective (golayEncode p) :=
  Function.LeftInverse.injective (golayEncode_data p)

theorem golayEncode_xor (p : Config.Params) (a b : BitVec 12) :
    golayEncode p a ^^^ golayEncode p b = golayEncode p (a ^^^ b) := by
  rw [golayEncode_eq_append, golayEncode_eq_append, golayEncode_eq_append, golayParity_xor]
  exact BitVec.xor_append

theorem golayEncode_zero (p : Config.Params) : golayEncode p 0#12 = 0#23 := by
  rw [golayEncode_eq_append, golayParity_zero]
  rfl

/-- A word is valid exactly when its high part is the parity of its low part. -/
theorem golayValid_append (p : Config.Params) (q : BitVec 11) (d : BitVec 12) :
    golayValid p (q ++ d) = true ↔ golayParity p d = q := by
  rw [golayValid, BitVec.setWidth_append_eq_right, golayEncode_eq_append, beq_iff_eq, BitVec.append_left_inj]

theorem golayValid_golayEncode (p : Config.Params) (d : BitVec 12) : golayValid p (golayEncode p d) = true := by
  rw [golayEncode_eq_append, golayValid_append]

/-- The valid words are the encodings. -/
theorem golayValid_iff_exists (p : Config.Params) (w : BitVec 23) :
    golayValid p w = true ↔ ∃ d, golayEncode p d = w := by
  constructor
  · intro h
    exact ⟨w.setWidth 12, eq_of_beq h⟩
  · rintro ⟨d, rfl⟩
    exact golayValid_golayEncode p d

theorem golayValid_xor {p : Config.Params} {v w : BitVec 23} (hv : golayValid p v = true) (hw : golayValid p w = true) :
    golayValid p (v ^^^ w) = true := by
  obtain ⟨a, rfl⟩ := (golayValid_iff_exists p v).1 hv
  obtain ⟨b, rfl⟩ := (golayValid_iff_exists p w).1 hw
  rw [golayEncode_xor]
  exact golayValid_golayEncode p _

/-- A change keeps a valid word valid exactly when the changed bits are a valid word themselves. -/
theorem golayValid_xor_iff {p : Config.Params} {w : BitVec 23} (hw : golayValid p w = true) (e : BitVec 23) :
    golayValid p (w ^^^ e) = true ↔ golayValid p e = true := by
  refine ⟨fun h => ?_, golayValid_xor hw⟩
  have he := golayValid_xor hw h
  rwa [← BitVec.xor_assoc, BitVec.xor_self, BitVec.zero_xor] at he

/-- There are as many valid words as data words (R110). -/
theorem card_golayValid (p : Config.Params) :
    (Finset.univ.filter fun w : BitVec 23 => golayValid p w = true).card = 4096 := by
  have himage : (Finset.univ.filter fun w : BitVec 23 => golayValid p w = true)
      = Finset.univ.image (golayEncode p) := by
    ext w
    simp [golayValid_iff_exists]
  rw [himage, Finset.card_image_of_injective _ (golayEncode_injective p), Finset.card_univ,
    ← FinEnum.card_eq_fintypeCard, FinEnum.card_bitVec]
  rfl

/-! One flipped bit (R110). -/

/-- A bit of the high part of a word is that bit above a zero low part. -/
theorem twoPow_eq_append_zero : ∀ k < 11, BitVec.twoPow 23 (12 + k) = BitVec.twoPow 11 k ++ 0#12 := by decide

/-- A bit of the low part of a word is that bit below a zero high part. -/
theorem twoPow_eq_zero_append : ∀ b < 12, BitVec.twoPow 23 b = 0#11 ++ BitVec.twoPow 12 b := by decide

theorem zero_ne_twoPow : ∀ k < 11, 0#11 ≠ BitVec.twoPow 11 k := by decide

/-- A single parity bit is no codeword: the parity of no data is 0. -/
theorem golayValid_parityBit (p : Config.Params) {k : Nat} (hk : k < 11) :
    golayValid p (BitVec.twoPow 23 (12 + k)) = false := by
  rw [← Bool.not_eq_true, twoPow_eq_append_zero k hk, golayValid_append, golayParity_zero]
  exact zero_ne_twoPow k hk

/-- A single data bit is a codeword exactly when its row is 0. -/
theorem golayValid_dataBit (p : Config.Params) {b : Nat} (hb : b < 12) :
    golayValid p (BitVec.twoPow 23 b) = true ↔ p.row b = 0#11 := by
  rw [twoPow_eq_zero_append b hb, golayValid_append, golayParity_twoPow p hb]

/-- Settles O48: the encoder is linear and injective with the valid words as its range, so a flipped bit is judged by
itself. -/
theorem golayLawsHoldForEveryTable : Obligations.GolayLawsHoldForEveryTable := by
  intro p
  refine ⟨golayEncode_xor p, golayEncode_zero p, golayValid_golayEncode p, card_golayValid p,
    fun _ _ => golayValid_xor, fun w b hw h12 h23 => ?_, fun w b hw hb => ?_⟩
  · obtain ⟨k, rfl⟩ := Nat.exists_eq_add_of_le h12
    rw [← Bool.not_eq_true, golayValid_xor_iff hw, Bool.not_eq_true]
    exact golayValid_parityBit p (by omega)
  · rw [golayValid_xor_iff hw]
    exact golayValid_dataBit p hb

/-! The commands (R112, R113). -/

/-- A pending command that reads neither window always completes (R120, R122). -/
theorem exec_of_readsNoWindow {c : Command} {s : State} (hb : s.busy = true) (hp : s.pending = c)
    (hblock : ¬ consumesBlock c) (hwave : c ≠ .recover) : exec c.toInstr s = .next ((commitOf c s).finish c) := by
  rw [exec_toInstr]
  exact runCommand_pending hb hp ⟨fun h => absurd h hblock, fun h => absurd h hwave⟩

/-- Settles O15: the completion is the commit, which writes RESULT alone. -/
theorem golayEncCompletes : Obligations.GolayEncCompletes := fun s hb hp =>
  ⟨_, completedStatus_of _ s.status, exec_of_readsNoWindow hb hp (by simp [consumesBlock]) nofun⟩

/-- `cfg.arg[22:0]` is valid exactly when it is the codeword of `cfg.arg[11:0]` (R109). -/
theorem State.golayValid_word23_iff (p : Config.Params) (s : State) :
    golayValid p s.word23 = true ↔ golayEncode p (s.cfgArg.extractLsb' 0 12) = s.cfgArg.extractLsb' 0 23 := by
  have hdata : (s.cfgArg.extractLsb' 0 23).setWidth 12 = s.cfgArg.extractLsb' 0 12 := by
    rw [← BitVec.setWidth_eq_extractLsb' (by decide), ← BitVec.setWidth_eq_extractLsb' (by decide),
      BitVec.setWidth_setWidth_of_le _ (by decide)]
  rw [golayValid, State.word23, hdata, beq_iff_eq]

/-- RESULT after GOLAY_CHK is 1 or 0, and 1 exactly for a valid word (R113). -/
theorem commitGolayChk_result (s : State) :
    ((commitGolayChk s).result = 1#32 ∨ (commitGolayChk s).result = 0#32)
    ∧ ((commitGolayChk s).result = 1#32 ↔ golayValid Config.hw.params s.word23 = true) := by
  simp only [commitGolayChk]
  cases golayValid Config.hw.params s.word23 <;> decide

/-- Settles O16: the completion is the commit, which writes RESULT alone. -/
theorem golayChkCompletes : Obligations.GolayChkCompletes := by
  intro s hb hp
  obtain ⟨hrange, hone⟩ := commitGolayChk_result s
  exact ⟨_, _, completedStatus_of _ s.status, hrange, hone.trans (s.golayValid_word23_iff _),
    exec_of_readsNoWindow hb hp (by simp [consumesBlock]) nofun⟩

end Sys2Proof.Machine
end

section
/-! SUPPORT. The rotations of a word bit by bit (R16), the marker as three bits, and the rotator's search as the first hit
of a `find?` over the rotations 1 to 23 (R114); with them the laws of the search (R116, R117) and the command RESOLVE
(R119). -/

namespace Sys2Proof.Machine

/-! The rotations (R16). -/

/-- Bit i of the k-th rotation is bit i + k of the word, cyclically (R16). -/
theorem rotr23_iterate_bit (x : BitVec 23) (k : Nat) {i : Nat} (hi : i < 23) :
    (rotr23^[k] x).getLsbD i = x.getLsbD ((i + k) % 23) := by
  induction k generalizing i with
  | zero => rw [Function.iterate_zero_apply, Nat.add_zero, Nat.mod_eq_of_lt hi]
  | succ k ih =>
    have hcycle : ((i + 1) % 23 + k) % 23 = (i + (k + 1)) % 23 := by omega
    rw [Function.iterate_succ_apply', rotr23_bit _ hi, ih (Nat.mod_lt _ (by decide)), hcycle]

/-- Only the rotation count modulo 23 matters. -/
theorem rotr23_iterate_congr (x : BitVec 23) {k l : Nat} (h : k % 23 = l % 23) : rotr23^[k] x = rotr23^[l] x := by
  apply BitVec.eq_of_getLsbD_eq
  intro i hi
  have hcycle : (i + k) % 23 = (i + l) % 23 := by omega
  rw [rotr23_iterate_bit x k hi, rotr23_iterate_bit x l hi, hcycle]

theorem rotr23_iterate_23 (x : BitVec 23) : rotr23^[23] x = x := rotr23_iterate_congr (l := 0) x rfl

/-! The marker (R114). -/

/-- The mask selects the field of bits 9 to 11. -/
theorem and_syncMask (r : BitVec 23) : r &&& Config.syncMask = (r.extractLsb' 9 3).setWidth 23 <<< 9 := by
  have hmask : ∀ b < 23, Config.syncMask.getLsbD b = (!decide (b < 9) && decide (b - 9 < 3)) := by decide
  apply BitVec.eq_of_getLsbD_eq
  intro b hb
  rw [BitVec.getLsbD_and, hmask b hb, BitVec.getLsbD_shiftLeft, BitVec.getLsbD_setWidth, BitVec.getLsbD_extractLsb']
  by_cases h9 : b < 9
  · simp [h9]
  · have hsub : 9 + (b - 9) = b := by omega
    have hlt : b - 9 < 23 := by omega
    simp [h9, hb, hsub, hlt, Bool.and_comm]

theorem field_eq_syncVal_iff :
    ∀ f : BitVec 3, (f.setWidth 23 <<< 9 == Config.syncVal) = true ↔ f = 0b100#3 := by decide

theorem field_eq_marker_iff :
    ∀ f : BitVec 3, f = 0b100#3 ↔ f.getLsbD 2 = true ∧ f.getLsbD 1 = false ∧ f.getLsbD 0 = false := by decide

/-- The marker is 0b100 in the field of bits 11 to 9. -/
theorem hasMarker_iff_field (r : BitVec 23) : hasMarker r = true ↔ r.extractLsb' 9 3 = 0b100#3 := by
  rw [hasMarker, and_syncMask, field_eq_syncVal_iff]

/-- The marker is a one bit above two zero bits. -/
theorem hasMarker_iff_bits (r : BitVec 23) :
    hasMarker r = true ↔ r.getLsbD 11 = true ∧ r.getLsbD 10 = false ∧ r.getLsbD 9 = false := by
  simp [hasMarker_iff_field, field_eq_marker_iff]

/-- The k-th rotation has the marker exactly when the word, read as a cycle, has a one bit at 11 + k above two zero
bits. -/
theorem hasMarker_iterate_iff (x : BitVec 23) (k : Nat) :
    hasMarker (rotr23^[k] x) = true ↔
      x.getLsbD ((11 + k) % 23) = true ∧ x.getLsbD ((10 + k) % 23) = false ∧ x.getLsbD ((9 + k) % 23) = false := by
  rw [hasMarker_iff_bits, rotr23_iterate_bit x k (by decide), rotr23_iterate_bit x k (by decide),
    rotr23_iterate_bit x k (by decide)]

/-! The search (R114). -/

/-- What the search returns when it stops at the k-th rotation (R114). -/
def resolvedAt (p : Config.Params) (la : Bool) (raw : BitVec 23) (k : Nat) : Resolved where
  rot := k
  key := (rotr23^[k] raw).setWidth 9
  code := p.aliasEntry la ((rotr23^[k] raw).setWidth 9).toNat

section
variable (p : Config.Params) (la : Bool) (raw : BitVec 23)

/-- A search with `fuel` rotations left stops at the first of them with the marker. -/
theorem resolveFrom_eq_find? (fuel k : Nat) :
    resolveFrom p la fuel (k + 1) (rotr23^[k] raw) =
      ((List.range' (k + 1) fuel).find? fun n => hasMarker (rotr23^[n] raw)).map (resolvedAt p la raw) := by
  induction fuel generalizing k with
  | zero => rfl
  | succ fuel ih =>
    rw [resolveFrom, ← Function.iterate_succ_apply' rotr23, List.range'_succ, List.find?_cons]
    cases hasMarker (rotr23^[k + 1] raw) with
    | true => rfl
    | false => exact ih (k + 1)

theorem resolve_eq_find? :
    resolve p la raw =
      ((List.range' 1 23).find? fun n => hasMarker (rotr23^[n] raw)).map (resolvedAt p la raw) :=
  resolveFrom_eq_find? p la raw 23 0

theorem resolvedAt_eq_iff (n : Nat) (r : Resolved) :
    resolvedAt p la raw n = r ↔
      n = r.rot ∧ r.key = (rotr23^[r.rot] raw).extractLsb' 0 9 ∧ r.code = p.aliasEntry la r.key.toNat := by
  rw [← BitVec.setWidth_eq_extractLsb' (by decide)]
  constructor
  · rintro rfl
    exact ⟨rfl, rfl, rfl⟩
  · obtain ⟨k, key, code⟩ := r
    dsimp only
    rintro ⟨rfl, rfl, rfl⟩
    rfl

/-- The search returns what it finds at the first of the rotations 1 to 23 with the marker (R114). -/
theorem resolve_eq_some_iff (r : Resolved) :
    resolve p la raw = some r ↔ ∃ n, (1 ≤ n ∧ n ≤ 23 ∧ hasMarker (rotr23^[n] raw) = true
      ∧ ∀ k, 1 ≤ k → k < n → ¬ hasMarker (rotr23^[k] raw) = true) ∧ resolvedAt p la raw n = r := by
  simp only [resolve_eq_find?, Option.map_eq_some_iff, List.find?_range'_eq_some, List.mem_range'_1,
    Bool.not_eq_eq_eq_not, Bool.not_true, Bool.not_eq_true]
  refine exists_congr fun n => and_congr_left fun _ => ?_
  constructor
  · rintro ⟨hmark, ⟨hlo, hhi⟩, hfirst⟩
    exact ⟨hlo, by omega, hmark, hfirst⟩
  · rintro ⟨hlo, hhi, hmark, hfirst⟩
    exact ⟨hmark, ⟨hlo, by omega⟩, hfirst⟩

/-- The search fails exactly when no rotation whatever has the marker (R116). -/
theorem resolve_eq_none_iff : resolve p la raw = none ↔ ∀ k, ¬ hasMarker (rotr23^[k] raw) = true := by
  rw [resolve_eq_find?, Option.map_eq_none_iff, List.find?_range'_eq_none]
  constructor
  · intro h k
    have hk : ((k + 22) % 23 + 1) % 23 = k % 23 := by omega
    rw [← rotr23_iterate_congr raw hk]
    simpa using h ((k + 22) % 23 + 1) (by omega) (by omega)
  · intro h k _ _
    simpa using h k

end

/-- Settles O50: the search is the first hit among the rotations 1 to 23, and the marker is the field 0b100. -/
theorem resolveFindsTheFirstMarker : Obligations.ResolveFindsTheFirstMarker := by
  intro p la raw
  refine ⟨rotr23_iterate_23 raw, fun r => ?_⟩
  simp only [resolve_eq_some_iff, resolvedAt_eq_iff, hasMarker_iff_field]
  constructor
  · rintro ⟨_, ⟨hlo, hhi, hmark, hfirst⟩, rfl, hkey, hcode⟩
    exact ⟨hlo, hhi, hmark, hfirst, hkey, hcode⟩
  · rintro ⟨hlo, hhi, hmark, hfirst, hkey, hcode⟩
    exact ⟨r.rot, ⟨hlo, hhi, hmark, hfirst⟩, rfl, hkey, hcode⟩

/-- The search fails exactly when the word, read as a cycle, has no one bit above two zero bits (R116). -/
theorem resolve_eq_none_iff_cyclic (p : Config.Params) (la : Bool) (raw : BitVec 23) :
    resolve p la raw = none ↔ ∀ q, q < 23 →
      ¬ (raw.getLsbD q = true ∧ raw.getLsbD ((q + 22) % 23) = false ∧ raw.getLsbD ((q + 21) % 23) = false) := by
  simp only [resolve_eq_none_iff, hasMarker_iterate_iff]
  constructor
  · intro h q hq
    have h11 : (11 + (q + 12)) % 23 = q := by omega
    have h10 : (10 + (q + 12)) % 23 = (q + 22) % 23 := by omega
    have h9 : (9 + (q + 12)) % 23 = (q + 21) % 23 := by omega
    have hq := h (q + 12)
    rwa [h11, h10, h9] at hq
  · intro h k
    have h10 : ((11 + k) % 23 + 22) % 23 = (10 + k) % 23 := by omega
    have h9 : ((11 + k) % 23 + 21) % 23 = (9 + k) % 23 := by omega
    have hk := h ((11 + k) % 23) (Nat.mod_lt _ (by decide))
    rwa [h10, h9] at hk

/-- Settles O51: the cyclic criterion decides the three words without a marker, and the search of 0x2AAAAA stops at the
13th rotation. -/
theorem resolveFailsWithoutACyclicMarker : Obligations.ResolveFailsWithoutACyclicMarker := by
  intro p la
  have hfails := resolve_eq_none_iff_cyclic p la
  have hfind : ((List.range' 1 23).find? fun n => hasMarker (rotr23^[n] 0x2AAAAA#23)) = some 13 := by decide
  have hkey : (rotr23^[13] 0x2AAAAA#23).setWidth 9 = 341#9 := by decide
  refine ⟨hfails, (hfails _).2 (by decide), (hfails _).2 (by decide), (hfails _).2 (by decide),
    (resolvedAt p la 0x2AAAAA#23 13).code, ?_⟩
  rw [resolve_eq_find?, hfind, ← hkey]
  rfl

/-! The rotation property (R117). -/

/-- A word and its rotation have the same rotations, so both resolve or neither does. -/
theorem resolve_rotr23_eq_none_iff (p : Config.Params) (la : Bool) (w : BitVec 23) :
    resolve p la (rotr23 w) = none ↔ resolve p la w = none := by
  simp only [resolve_eq_none_iff, ← Function.iterate_succ_apply rotr23]
  constructor
  · intro h k
    rw [← rotr23_iterate_congr w (Nat.add_mod_right k 23)]
    exact h (k + 22)
  · intro h k
    exact h (k + 1)

/-- One rotation keeps the code when two resolutions, of a word and of its rotation, agree. -/
theorem resolve_rotr23_code {p : Config.Params} {la : Bool} {w : BitVec 23}
    (hagree : ∀ r r', resolve p la w = some r → resolve p la (rotr23 w) = some r' → r.code = r'.code) :
    (resolve p la (rotr23 w)).map Resolved.code = (resolve p la w).map Resolved.code := by
  have hnone := resolve_rotr23_eq_none_iff p la w
  cases hw : resolve p la w with
  | none => rw [hnone.2 hw]
  | some r =>
    cases hw' : resolve p la (rotr23 w) with
    | none => exact absurd (hnone.1 hw') (by simp [hw])
    | some r' => exact congrArg some (hagree r r' hw hw').symm

/-- Settles O52, rotation by rotation: each keeps the word valid and its code. -/
theorem rotatedCodewordsResolveAlike : Obligations.RotatedCodewordsResolveAlike := by
  intro p la hcyclic hagree w m hw
  induction m generalizing w with
  | zero => rfl
  | succ m ih =>
    rw [Function.iterate_succ_apply, ih _ (hcyclic w hw)]
    exact resolve_rotr23_code fun r r' => hagree w r r' hw

/-! The command (R119). -/

/-- Settles O17: the completion is the commit, which writes RESULT alone. -/
theorem resolveCompletes : Obligations.ResolveCompletes := fun s hb hp =>
  ⟨_, completedStatus_of _ s.status, exec_of_readsNoWindow hb hp (by simp [consumesBlock]) nofun⟩

end Sys2Proof.Machine
end

section
/-! SUPPORT. The step forward: the engine's own move (R122, R155), the outcomes that are no next state (R58, R66, R156)
and the moves a step leaves to come (R59); with them, that no run stops and that every accepted command ends (R123,
R134). -/

namespace Sys2Proof.Machine

/-! The engine's own move (R122, R155). -/

theorem State.setAgenda_self {s : State} {l : List Event} (h : s.agenda = l) : { s with agenda := l } = s := by
  rw [← h]

/-- The engine moves next, and `rest` are the moves after it: at a completion entry of the schedule, and when no move is
left (R122, R123). -/
def engineTurn (s : State) (rest : List Event) : Prop :=
  s.agenda = [] ∧ rest = [] ∨ s.agenda = .complete :: rest

section
variable {s : State} {rest : List Event} (h : engineTurn s rest)
include h

theorem fetch_engineTurn : fetch s = engineMove { s with agenda := rest } := by
  rcases h with ⟨hnil, rfl⟩ | hcons
  · rw [State.setAgenda_self hnil, fetch, hnil]
  · rw [fetch, hcons]

theorem step_engineTurn_busy (hb : s.busy = true) : step s = exec s.pending.toInstr { s with agenda := rest } :=
  step_of_run ((fetch_engineTurn h).trans (if_pos hb))

theorem step_engineTurn_idle (hb : s.busy = false) : step s = .next { s with agenda := rest } :=
  step_of_done ((fetch_engineTurn h).trans (if_neg (ne_true_of_eq_false hb)))

end

/-- Settles O6: both are the engine's turn, with nothing or the completion entry taken off. -/
theorem engineStepRunsThePendingCommand : Obligations.EngineStepRunsThePendingCommand := by
  intro s rest
  refine ⟨fun hb => ⟨fun hnil => ?_, fun hcons => step_engineTurn_busy (.inr hcons) hb⟩,
    fun hb => ⟨fun hnil => ?_, fun hcons => step_engineTurn_idle (.inr hcons) hb⟩⟩
  · rw [step_engineTurn_busy (.inl ⟨hnil, rfl⟩) hb, State.setAgenda_self hnil]
  · rw [step_engineTurn_idle (.inl ⟨hnil, rfl⟩) hb, State.setAgenda_self hnil]

/-! The outcomes of a step (R134, R156). -/

/-- A step faults only where the pending command reads an entry that is not valid (R58). -/
theorem step_engineTurn_outcome {s : State} {rest : List Event} (h : engineTurn s rest) :
    (∃ t, step s = .next t) ∨ ∃ f, step s = .fault f ∧ s.busy = true ∧ ¬ ramReady s.pending s := by
  cases hb : s.busy with
  | false => exact .inl ⟨_, step_engineTurn_idle h hb⟩
  | true =>
    rw [step_engineTurn_busy h hb, exec_toInstr, ← completionFault_none_iff]
    rcases runCommand_cases s.pending (commitOf s.pending) { s with agenda := rest } with
      ⟨_, he⟩ | ⟨_, _, _, he⟩ | ⟨_, _, f, hf, he⟩ | ⟨_, _, he⟩
    · exact .inl ⟨_, he⟩
    · exact .inl ⟨_, he⟩
    · exact .inr ⟨f, he, rfl, fun hnone => nomatch hnone.symm.trans hf⟩
    · exact .inl ⟨_, he⟩

theorem exec_transaction_next {i : Instr} (hi : isTransaction i) (s : State) : ∃ t, exec i s = .next t := by
  rcases exec_transaction hi s with he | ⟨_, he⟩ | he | ⟨_, _, _, _, he⟩
  all_goals exact ⟨_, he⟩

/-- Every step gives a next state, but for a completion that reads an entry that is not valid (R58) and a record that
spells no transaction (R66). -/
theorem step_outcome (s : State) :
    (∃ t, step s = .next t) ∨ (∃ f, step s = .fault f ∧ s.busy = true ∧ ¬ ramReady s.pending s)
      ∨ ∃ r rest, s.agenda = .word (.bus r) :: rest ∧ (Encoded.bus r).wf ≠ true
          ∧ step s = .refused .notATransaction := by
  cases hagenda : s.agenda with
  | nil => exact (step_engineTurn_outcome (.inl ⟨hagenda, rfl⟩)).imp_right .inl
  | cons e rest =>
    cases e with
    | complete => exact (step_engineTurn_outcome (.inr hagenda)).imp_right .inl
    | reset => exact .inl ⟨_, step_of_done (by rw [fetch, hagenda])⟩
    | access we off size v =>
      by_cases hadm : admitted off size = true
      · rw [step_of_run ((fetch_access hagenda).trans (accessMove_admitted hadm we v _))]
        exact .inl (exec_transaction_next (accessInstr_transaction we off v) _)
      · exact .inl ⟨_, step_of_done ((fetch_access hagenda).trans (accessMove_refused hadm we v _))⟩
    | word e =>
      have hfetch := fetch_word hagenda
      cases e with
      | cmd w =>
        rcases wordMove_cmd w { s with agenda := rest } with ⟨u, hmove, _⟩ | ⟨c, hmove, hexec⟩
        · exact .inl ⟨u, step_of_done (hfetch.trans hmove)⟩
        · exact .inl ⟨_, (step_of_run (hfetch.trans hmove)).trans hexec⟩
      | bus r =>
        cases hd : decode (.bus r) with
        | ok i =>
          rw [step_of_run (hfetch.trans (wordMove_of_decode hd nofun))]
          exact .inl (exec_transaction_next (decodeRecord_transaction hd) _)
        | error err =>
          refine .inr (.inr ⟨r, rest, rfl, fun hwf => ?_, ?_⟩)
          · obtain ⟨i, hok, _⟩ := decodeRecord_of_wf hwf
            exact nomatch hd.symm.trans hok
          · rw [step, hfetch, wordMove, hd]

/-! The moves left to come (R59). -/

theorem State.accept_agenda (s : State) (c : Command) : (s.accept c).agenda = s.agenda := by
  rcases s.accept_cases c with ⟨_, he | he⟩ | ⟨_, he⟩
  all_goals simp [he]

theorem State.issue_agenda (s : State) (v : Word) : (s.issue v).agenda = s.agenda := by
  rcases s.issue_cases v with ⟨_, he⟩ | ⟨_, _, he⟩ | ⟨_, c, _, he⟩
  · rw [he, State.raise_agenda]
  · rw [he, State.raise_agenda]
  · rw [he, State.accept_agenda]

theorem State.writeTarget_agenda (s : State) (v : Word) (t : Target) : (s.writeTarget v t).agenda = s.agenda := by
  rcases s.writeTarget_cases v t with he | he | he | he | he | ⟨he, _⟩ | ⟨_, he | he | ⟨_, _, he⟩ | ⟨_, _, he⟩⟩
  all_goals simp [he, State.issue_agenda]

theorem State.readTarget_agenda (s : State) (t : Target) : (s.readTarget t).agenda = s.agenda := by
  obtain ⟨v, n, he⟩ := s.readTarget_cases t
  rw [he]

theorem State.refusedAccess_agenda (s : State) (we : Bool) : (s.refusedAccess we).agenda = s.agenda := by
  cases we <;> rfl

theorem exec_transaction_agenda {i : Instr} (hi : isTransaction i) {s t : State} (he : exec i s = .next t) :
    t.agenda = s.agenda := by
  rcases exec_transaction hi s with hx | ⟨tg, hx⟩ | hx | ⟨a, v, tg, _, hx⟩
  all_goals
    rw [hx] at he
    cases he
  · rfl
  · exact s.readTarget_agenda tg
  · rfl
  · exact s.writeTarget_agenda v tg

theorem completion_agenda (c : Command) (s : State) : ((commitOf c s).finish c).agenda = s.agenda := by
  rw [State.finish_agenda, commitOf_frame]

/-- A step takes the first of the moves to come off, if there is one, and adds none. -/
theorem step_agenda {s t : State} (h : step s = .next t) : t.agenda = s.agenda.tail := by
  rcases step_cases h with ⟨rest, ha, rfl⟩ | ⟨rest, hturn, hmove⟩ | ⟨w, rest, ha, rfl⟩ | ⟨i, rest, ha, hi, he⟩
    | ⟨we, _, _, _, rest, ha, _, rfl⟩
  · rw [ha]
    rfl
  · have hrest : s.agenda.tail = rest := by
      rcases hturn with ⟨hnil, rfl⟩ | hcons
      · rw [hnil, List.tail_nil]
      · rw [hcons, List.tail_cons]
    rcases hmove with ⟨_, rfl⟩ | ⟨hb, he⟩
    · exact hrest.symm
    · obtain ⟨_, rfl⟩ := exec_pending_next (s := { s with agenda := rest }) hb he
      exact (completion_agenda _ _).trans hrest.symm
  · rw [State.issue_agenda, ha, List.tail_cons]
  · rw [exec_transaction_agenda hi he]
    rcases ha with ⟨r, ha, _⟩ | ⟨we, off, size, v, ha, _⟩
    · rw [ha, List.tail_cons]
    · rw [ha, List.tail_cons]
  · rw [State.refusedAccess_agenda, ha, List.tail_cons]

/-! The invariant rules out the two stops (R58, R134). -/

theorem State.Inv.step_ne_fault {s : State} (h : s.Inv) (f : Fault) : step s ≠ .fault f := by
  intro hf
  rcases step_outcome s with ⟨t, he⟩ | ⟨_, _, hb, hnot⟩ | ⟨_, _, _, _, he⟩
  · exact nomatch hf.symm.trans he
  · obtain ⟨_, hram⟩ := h.ready hb
    exact hnot hram
  · exact nomatch hf.symm.trans he

theorem State.Inv.step_next {s : State} (h : s.Inv) (hwf : agendaWellFormed s) : ∃ t, step s = .next t := by
  rcases step_outcome s with hnext | ⟨f, hf, _⟩ | ⟨r, rest, hagenda, hnot, _⟩
  · exact hnext
  · exact absurd hf (h.step_ne_fault f)
  · exact absurd (hwf (.word (.bus r)) (by simp [hagenda])) hnot

theorem step_keeps_agendaWellFormed {s t : State} (hwf : agendaWellFormed s) (h : step s = .next t) :
    agendaWellFormed t := by
  intro e he
  rw [step_agenda h] at he
  exact hwf e (List.mem_of_mem_tail he)

/-- Settles O56: the invariant rules out the fault and a well-formed agenda the refusal; the step keeps both. -/
theorem noStepStops : Obligations.NoStepStops := by
  refine fun s h => ⟨h.step_ne_fault, fun hwf => ?_⟩
  obtain ⟨t, ht⟩ := h.step_next hwf
  exact ⟨t, ht, step_keeps_inv h ht, step_keeps_agendaWellFormed hwf ht⟩

/-! Every accepted command ends (R123). -/

/-- The engine's turn while BUSY ends in mode IDLE (R122). -/
theorem step_engineTurn_ends {s t : State} {rest : List Event} (h : engineTurn s rest) (hb : s.busy = true)
    (hstep : step s = .next t) : t.busy = false := by
  rw [step_engineTurn_busy h hb] at hstep
  obtain ⟨_, rfl⟩ := exec_pending_next (s := { s with agenda := rest }) hb hstep
  exact State.finish_busy _ _

/-- Settles O57, by induction on the moves left: each step ends the command or takes one off, and the engine completes
when none is left. -/
theorem everyAcceptedCommandEnds : Obligations.EveryAcceptedCommandEnds := by
  intro s h hwf hb
  induction hagenda : s.agenda generalizing s with
  | nil =>
    obtain ⟨t, ht⟩ := h.step_next hwf
    exact ⟨1, t, le_refl 1, coreRun_succ (M := Sys2Proof.core) ht 0, step_engineTurn_ends (.inl ⟨hagenda, rfl⟩) hb ht⟩
  | cons e rest ih =>
    obtain ⟨t, ht⟩ := h.step_next hwf
    cases hbt : t.busy with
    | false => exact ⟨1, t, by simp, coreRun_succ (M := Sys2Proof.core) ht 0, hbt⟩
    | true =>
      have hrest : t.agenda = rest := by rw [step_agenda ht, hagenda, List.tail_cons]
      obtain ⟨k, u, hk, hrun, hidle⟩ := ih t (step_keeps_inv h ht) (step_keeps_agendaWellFormed hwf ht) hbt hrest
      exact ⟨k + 1, u, Nat.succ_le_succ hk, (coreRun_succ (M := Sys2Proof.core) ht k).trans hrun, hidle⟩

end Sys2Proof.Machine
end

section
/-! SUPPORT. The CMD write (R121): what acceptance refuses, check by check; and the completions of NOP (R132) and CLRBLK
(R133). -/

namespace Sys2Proof.Machine

/-! Acceptance (R121). -/

theorem refusedWith_operand (s : State) : refusedWith 3#4 4 s (.next (s.raise .operand)) :=
  ⟨_, raisedStatus_operand s.status, rfl⟩

theorem refusedWith_incomplete (s : State) : refusedWith 4#4 5 s (.next (s.raise .incomplete)) :=
  ⟨_, raisedStatus_incomplete s.status, rfl⟩

/-- The operand check comes before the completeness checks (R140). -/
theorem State.accept_of_operandOutOfRange {k : BitVec 8} (hk : 50 ≤ k.toNat) (s : State) :
    s.accept (.score k) = s.raise .operand := by
  rw [State.accept, operandOutOfRange, decide_eq_true hk, if_pos rfl]

/-- A command whose operand is in range, but which reads an entry that is not valid, is refused (R141). -/
theorem State.accept_of_not_ramReady {c : Command} {s : State} (hop : ∀ k, c = .score k → k.toNat < 50)
    (hram : ¬ ramReady c s) : s.accept c = s.raise .incomplete := by
  rw [← completionFault_none_iff, completionFault] at hram
  rw [State.accept, (operandOutOfRange_false_iff c).2 hop]
  cases hblock : needsBlock c && !s.blockComplete <;> cases hwave : needsWave c && !s.waveComplete <;>
    simp [hblock, hwave] at hram ⊢

/-- Only the encoding of a command decodes to it. -/
theorem decodeCommand_of_decode {w : Word} {c : Command} (h : decode (.cmd w) = .ok c.toInstr) :
    decodeCommand w = .ok c := by
  have henc := decodedWordIsTheEncoding _ _ h
  rw [encode_toInstr] at henc
  exact (decodeCommand_eq_ok_iff w c).2 (Encoded.cmd.inj henc)

/-- Settles O9: the CMD write is `issue`; in mode IDLE it refuses an illegal word and hands a legal one to acceptance,
whose checks are the operand's, then the RAM's. -/
theorem cmdWriteChecksInOrder : Obligations.CmdWriteChecksInOrder := by
  intro v s
  rw [exec_write_cmd]
  refine ⟨fun hb => ?_, fun hb => ⟨fun err hd => ?_, fun c hd => ?_⟩⟩
  · rw [State.issue, if_pos hb]
    exact refusedWith_busy s
  · rcases decode_cmd_cases v with ⟨c, _, hok⟩ | ⟨err', herr, _⟩
    · exact nomatch hd.symm.trans hok
    · rw [State.issue_illegal hb herr]
      exact refusedWith_command s
  · rw [State.issue_of_decode hb (decodeCommand_of_decode hd)]
    refine ⟨?_, fun ⟨hc, hl⟩ => ?_, fun hc hl => ?_, fun hready => ?_⟩
    · rintro k rfl hk
      rw [State.accept_of_operandOutOfRange hk]
      exact refusedWith_operand s
    · have hop : ∀ k, c = .score k → k.toNat < 50 := by
        rintro k rfl
        simpa using hc
      have hblock : consumesBlock c := hc.imp_left fun ⟨k, hk, _⟩ => ⟨k, hk⟩
      rw [State.accept_of_not_ramReady hop fun ⟨hram, _⟩ => hl (hram hblock)]
      exact refusedWith_incomplete s
    · rw [State.accept_of_not_ramReady (fun k hk => nomatch hc.symm.trans hk) fun ⟨_, hram⟩ => hl (hram hc)]
      exact refusedWith_incomplete s
    · refine ⟨statusAccepted s.status, ?_, ?_, fun b hb2 => ?_, congrArg _ (State.accept_of_ready hready)⟩
      · rw [statusAccepted_bit]
        rfl
      · rw [statusAccepted_bit]
        simp
      · have h0 : b ≠ 0 := by omega
        have h1 : b ≠ 1 := by omega
        rw [statusAccepted_bit]
        simp [h0, h1]

/-! The commands that read nothing (R132, R133). -/

/-- Settles O14: the completion is NOP's commit, which changes nothing, and the end of R122. -/
theorem nopCompletes : Obligations.NopCompletes := fun s hb hp =>
  ⟨_, completedStatus_of _ s.status, exec_of_readsNoWindow hb hp (by simp [consumesBlock]) nofun⟩

/-- Settles O18: the completion is CLRBLK's commit, which writes the valid bits alone. -/
theorem clrblkCompletes : Obligations.ClrblkCompletes := fun s hb hp =>
  ⟨_, completedStatus_of _ s.status, exec_of_readsNoWindow hb hp (by simp [consumesBlock]) nofun⟩

end Sys2Proof.Machine
end

section
/-! SUPPORT. The commands DCS (R127) and RUN (R128): what their completions commit, from what the filter commit and the
classification commit. -/

namespace Sys2Proof.Machine

/-! The committed peaks are the extremes of the committed waveform (R90, R91). -/

section
variable {p : Config.Params} (hp : p.wf = true) {s : State} (hwf : s.mem.wf = true)
include hp hwf

theorem commitFir_waveValue_between {m : Nat} (hm : m < p.waveLen) :
    (commitFir p s).peakLow.toInt ≤ (commitFir p s).waveValue m
      ∧ (commitFir p s).waveValue m ≤ (commitFir p s).peakHigh.toInt := by
  rw [commitFir_waveValue hp hwf hm, commitFir_peakLow_toInt hp, commitFir_peakHigh_toInt hp]
  exact ⟨(firPeakLow_spec hp s.block).2 m hm, (firPeakHigh_spec hp s.block).2 m hm⟩

theorem commitFir_peakLow_attained :
    ∃ m, m < p.waveLen ∧ (commitFir p s).waveValue m = (commitFir p s).peakLow.toInt := by
  obtain ⟨⟨m, hm, hattained⟩, _⟩ := firPeakLow_spec hp s.block
  exact ⟨m, hm, by rw [commitFir_waveValue hp hwf hm, commitFir_peakLow_toInt hp, hattained]⟩

theorem commitFir_peakHigh_attained :
    ∃ m, m < p.waveLen ∧ (commitFir p s).waveValue m = (commitFir p s).peakHigh.toInt := by
  obtain ⟨⟨m, hm, hattained⟩, _⟩ := firPeakHigh_spec hp s.block
  exact ⟨m, hm, by rw [commitFir_waveValue hp hwf hm, commitFir_peakHigh_toInt hp, hattained]⟩

end

/-- The filter commit reads the memory and the WAVE valid bits alone, and leaves every field it does not write (R91). -/
theorem commitFir_of_sameMem (p : Config.Params) {s t : State} (hmem : t.mem = s.mem)
    (hvalid : t.waveValid = s.waveValid) :
    commitFir p t = { t with
      mem := (commitFir p s).mem
      waveValid := (commitFir p s).waveValid
      peakLow := (commitFir p s).peakLow
      peakHigh := (commitFir p s).peakHigh } := by
  have hblock : t.block = s.block := funext fun j => by
    rw [State.block, State.block, State.sampleRaw, hmem, State.sampleRaw]
  obtain ⟨hmem', hvalid'⟩ := storeWave_congr (fir p s.block) p.waveLen hmem hvalid
  rw [commitFir_eq, commitFir_eq, hblock, hmem', hvalid']

/-! DCS (R125 to R127). -/

/-- The chain runs the synchroniser with the peaks it commits (R125). -/
theorem chainRaw_eq_committedPeaks (s : State) :
    chainRaw Config.hw.params s.block s.invMask
      = recoverBits Config.hw.params (fir Config.hw.params s.block) (commitDcs s).peakLow.toInt
          (commitDcs s).peakHigh.toInt (if s.cfgInvert then 0x7FFFFF#23 else 0#23) := by
  have hlow : (commitDcs s).peakLow.toInt = firPeakLow Config.hw.params s.block :=
    commitFir_peakLow_toInt Config.hw.ok s
  have hhigh : (commitDcs s).peakHigh.toInt = firPeakHigh Config.hw.params s.block :=
    commitFir_peakHigh_toInt Config.hw.ok s
  rw [hlow, hhigh]
  rfl

theorem commitChain_eq (p : Config.Params) (s : State) :
    commitChain p s = { s with
      mem := (commitFir p s).mem
      waveValid := (commitFir p s).waveValid
      peakLow := (commitFir p s).peakLow
      peakHigh := (commitFir p s).peakHigh
      dcsRaw := packRaw (chainRaw p s.block s.invMask)
      dcsResult := packResolved (chainResolved p s.cfgAlias (chainRaw p s.block s.invMask)) } := by
  rw [commitChain, commitFir_eq]

/-- Every completion shows in STATUS as R122 says, whatever it commits. -/
theorem completedStatus_finish (c : Command) (s : State) :
    completedStatus c.opcode s.status ((commitOf c s).finish c).status := by
  rw [State.finish_status, commitOf_frame]
  exact completedStatus_of c.opcode s.status

/-- Settles O23: the completion is the chain's commit: the filter commit, and the two words from its own outputs. -/
theorem dcsCompletes : Obligations.DcsCompletes := by
  intro s hb hp hl hwf
  have hok := Config.hw.ok
  refine ⟨(commitDcs s).finish .dcs, chainRaw Config.hw.params s.block s.invMask, exec_of_blockLoaded hb hp hl nofun,
    completedStatus_finish .dcs s, ?_, chainRaw_eq_committedPeaks s, packRaw_shows _,
    fun m hm => commitFir_waveValue hok hwf hm, commitFir_waveLoaded s,
    fun m hm => commitFir_waveValue_between hok hwf hm, commitFir_peakLow_attained hok hwf,
    commitFir_peakHigh_attained hok hwf, fun a ha => commitFir_readByte_outsideWave s ha⟩
  rw [commitDcs, commitChain_eq]
  rfl

/-! RUN (R128, R130). -/

theorem packTone_valid {sc : Nat → Int} :
    (packTone (scanDecision (scanScores sc))).getLsbD 31 = (scanDecision (scanScores sc)).isSome := by
  obtain ⟨hvalid, _⟩ := packTone_shows (r := scanDecision (scanScores sc)) fun _ => scanDecision_scanScores_lt
  exact hvalid

theorem packResolved_valid (r : Option Resolved) : (packResolved r).getLsbD 31 = r.isSome := by
  cases r with
  | none => exact BitVec.getLsbD_zero
  | some r => exact packResolved_found r

/-- The idle registers are updated from the two VALID bits that the branches commit (R39, R128). -/
theorem idleUpdate_eq_committedBits (s : State) :
    idleUpdate Config.hw.params s
      = Config.idleUpdate ((commitClassify s).toneResult.getLsbD 31) ((commitDcs s).dcsResult.getLsbD 31) s.idleTimeout
          s.sweepPhase := by
  have htone : (commitClassify s).toneResult.getLsbD 31
      = (scanDecision (scanScores (toneScores Config.hw.params s.block))).isSome := packTone_valid
  have hdcs : (commitDcs s).dcsResult.getLsbD 31
      = (chainResolved Config.hw.params s.cfgAlias (chainRaw Config.hw.params s.block s.invMask)).isSome :=
    packResolved_valid _
  rw [htone, hdcs, idleUpdate]

/-- RUN commits CLASSIFY's registers and DCS's, and the idle registers (R128). -/
theorem commitRun_eq (s : State) :
    commitRun s = { s with
      toneResult := (commitClassify s).toneResult
      toneMax := (commitClassify s).toneMax
      toneAvg := (commitClassify s).toneAvg
      toneMaxIdx := (commitClassify s).toneMaxIdx
      scores := (commitClassify s).scores
      mem := (commitDcs s).mem
      waveValid := (commitDcs s).waveValid
      peakLow := (commitDcs s).peakLow
      peakHigh := (commitDcs s).peakHigh
      dcsRaw := (commitDcs s).dcsRaw
      dcsResult := (commitDcs s).dcsResult
      idleTimeout := (idleUpdate Config.hw.params s).1
      sweepPhase := (idleUpdate Config.hw.params s).2 } := by
  rw [commitRun, commitDcs, commitChain_eq, commitClassify]

/-- CLASSIFY and DCS commit the same, whatever command is pending. -/
theorem commitClassify_setPending (s : State) (c : Command) :
    commitClassify { s with pending := c } = { commitClassify s with pending := c } := rfl

theorem commitDcs_setPending (s : State) (c : Command) :
    commitDcs { s with pending := c } = { commitDcs s with pending := c } := by
  have hfir := commitFir_of_sameMem Config.hw.params (s := s) (t := { s with pending := c }) rfl rfl
  rw [commitDcs, commitDcs, commitChain, hfir, commitChain_eq]
  rfl

/-- Settles O24: the three commands complete on one block, and RUN's commit is made of the other two's. -/
theorem runCompletesAsClassifyAndDcs : Obligations.RunCompletesAsClassifyAndDcs := by
  intro s hb hp hl
  have hclassify : exec .classify { s with pending := .classify } = _ :=
    exec_of_blockLoaded (c := .classify) hb rfl hl nofun
  have hdcs : exec .dcs { s with pending := .dcs } = _ := exec_of_blockLoaded (c := .dcs) hb rfl hl nofun
  rw [commitOf, commitClassify_setPending] at hclassify
  rw [commitOf, commitDcs_setPending] at hdcs
  refine ⟨(commitRun s).finish .run, _, _, exec_of_blockLoaded hb hp hl nofun, hclassify, hdcs,
    completedStatus_finish .run s, ?_, idleUpdate_eq_committedBits s,
    packTone_shows fun _ => scanDecision_scanScores_lt, ?_⟩
  · rw [commitRun_eq]
    rfl
  · show dcsRawShows (recoverBits _ _ (commitDcs s).peakLow.toInt (commitDcs s).peakHigh.toInt _) _
    rw [← chainRaw_eq_committedPeaks]
    exact packRaw_shows _

end Sys2Proof.Machine
end

section
/-! SUPPORT. The host's moves while BUSY (R138, R162): what they may change, that a completion neither reads nor writes
it, and that the commit is the same wherever the completion falls among them (R59, R122). -/

namespace Sys2Proof.Machine

/-! What the host's moves may change while BUSY. -/

/-- The first state with CTRL, ARG, STATUS, the value last read and the draws of the second. -/
def State.withHostOf (s u : State) : State :=
  { s with ctrl := u.ctrl, arg := u.arg, status := u.status, busData := u.busData, draws := u.draws }

/-- The second state is the first but for the fields that the host's moves change while BUSY. -/
def hostEdited (s u : State) : Prop := u = s.withHostOf u

theorem hostEdited_refl (s : State) : hostEdited s s := rfl

theorem hostEdited_trans {s u v : State} (hu : hostEdited s u) (hv : hostEdited u v) : hostEdited s v :=
  calc v = u.withHostOf v := hv
    _ = (s.withHostOf u).withHostOf v := congrArg (fun x => State.withHostOf x v) hu

theorem hostEdited_agenda {s u : State} (h : hostEdited s u) : u.agenda = s.agenda := by
  rw [h]
  rfl

theorem hostEdited_pending {s u : State} (h : hostEdited s u) : u.pending = s.pending := by
  rw [h]
  rfl

theorem hostEdited_setAgenda {s u : State} (h : hostEdited s u) (l : List Event) :
    hostEdited { s with agenda := l } { u with agenda := l } :=
  have hset : ({ u with agenda := l } : State) = { s.withHostOf u with agenda := l } :=
    congrArg (fun x : State => ({ x with agenda := l } : State)) h
  hset

section
variable {s : State} (hb : s.busy = true)
include hb

theorem State.issue_of_busy (v : Word) : s.issue v = s.raise .busy := if_pos hb

/-- A write while BUSY reaches CTRL, ARG or STATUS, or is refused (R138, R162). -/
theorem writeTarget_hostEdited (v : Word) (t : Target) :
    (s.writeTarget v t).busy = true ∧ hostEdited s (s.writeTarget v t) := by
  rcases s.writeTarget_cases v t with he | he | he | he | he | ⟨he, _⟩ | ⟨hidle, _⟩
  · rw [he]
    exact ⟨hb, rfl⟩
  · rw [he]
    exact ⟨hb, rfl⟩
  · rw [he]
    exact ⟨(s.clearStatus_busy v).trans hb, rfl⟩
  · rw [he, State.issue_of_busy hb]
    exact ⟨(s.raise_busy _).trans hb, rfl⟩
  · rw [he]
    exact ⟨hb, rfl⟩
  · rw [he]
    exact ⟨(s.raise_busy _).trans hb, rfl⟩
  · exact nomatch hidle.symm.trans hb

theorem exec_transaction_hostEdited {i : Instr} (hi : isTransaction i) :
    ∃ u, exec i s = .next u ∧ u.busy = true ∧ hostEdited s u := by
  rcases exec_transaction hi s with he | ⟨t, he⟩ | he | ⟨_, v, t, _, he⟩
  · exact ⟨_, he, s.refusedRead_busy.trans hb, rfl⟩
  · obtain ⟨v, n, hread⟩ := s.readTarget_cases t
    rw [hread] at he
    exact ⟨_, he, hb, rfl⟩
  · exact ⟨_, he, (s.raise_busy _).trans hb, rfl⟩
  · exact ⟨_, he, writeTarget_hostEdited hb v t⟩

end

/-- A move of the host while BUSY leaves the engine BUSY and the rest of it as it was. -/
theorem step_hostMove {s : State} {e : Event} {rest : List Event} (hb : s.busy = true) (he : isHostMove e)
    (hwf : eventWellFormed e) (hagenda : s.agenda = e :: rest) :
    ∃ u, step s = .next u ∧ u.busy = true ∧ hostEdited { s with agenda := rest } u := by
  cases e with
  | complete => exact he.elim
  | reset => exact he.elim
  | access we off size v =>
    have hfetch := fetch_access hagenda
    by_cases hadm : admitted off size = true
    · rw [step_of_run (hfetch.trans (accessMove_admitted hadm we v _))]
      exact exec_transaction_hostEdited (s := { s with agenda := rest }) hb (accessInstr_transaction we off v)
    · refine ⟨_, step_of_done (hfetch.trans (accessMove_refused hadm we v _)), ?_⟩
      cases we with
      | true => exact ⟨(State.raise_busy _ _).trans hb, rfl⟩
      | false => exact ⟨(State.refusedRead_busy _).trans hb, rfl⟩
  | word e =>
    have hfetch := fetch_word hagenda
    cases e with
    | cmd w =>
      exact ⟨_, step_of_done (hfetch.trans (wordMove_busy (s := { s with agenda := rest }) hb w)),
        (State.raise_busy _ _).trans hb, rfl⟩
    | bus r =>
      obtain ⟨i, hd, hi⟩ := decodeRecord_of_wf hwf
      rw [step_of_run (hfetch.trans (wordMove_of_decode hd nofun))]
      exact exec_transaction_hostEdited (s := { s with agenda := rest }) hb hi

/-- The host's moves before `r`, made while BUSY: the run goes on from a BUSY state that they have edited. -/
theorem run_hostMoves (l r : List Event) {s : State} (hb : s.busy = true)
    (hl : ∀ e ∈ l, isHostMove e ∧ eventWellFormed e) :
    ∃ u, u.busy = true ∧ hostEdited { s with agenda := r } u
      ∧ ∀ k, Sys2Proof.core.run (l.length + k) { s with agenda := l ++ r } = Sys2Proof.core.run k u := by
  induction l generalizing s with
  | nil =>
    refine ⟨{ s with agenda := r }, hb, hostEdited_refl _, fun k => ?_⟩
    rw [List.length_nil, Nat.zero_add, List.nil_append]
  | cons e l ih =>
    obtain ⟨⟨he, hwf⟩, hrest⟩ := List.forall_mem_cons.1 hl
    obtain ⟨t, hstep, hbt, ht⟩ := step_hostMove (s := { s with agenda := e :: l ++ r }) hb he hwf rfl
    have hagenda : t.agenda = l ++ r := step_agenda hstep
    obtain ⟨u, hbu, hu, hrun⟩ := ih hbt hrest
    rw [State.setAgenda_self hagenda] at hrun
    refine ⟨u, hbu, hostEdited_trans (hostEdited_setAgenda ht r) hu, fun k => ?_⟩
    rw [List.length_cons, Nat.add_right_comm]
    exact (coreRun_succ (M := Sys2Proof.core) hstep _).trans (hrun k)

/-! The completion reads and writes none of it (R122, R131). -/

theorem commitFir_withHostOf (p : Config.Params) (s u : State) :
    commitFir p (s.withHostOf u) = (commitFir p s).withHostOf u := by
  rw [commitFir_of_sameMem p (s := s) (t := s.withHostOf u) rfl rfl, commitFir_eq]
  rfl

theorem commitChain_withHostOf (p : Config.Params) (s u : State) :
    commitChain p (s.withHostOf u) = (commitChain p s).withHostOf u := by
  rw [commitChain, commitFir_withHostOf]
  rfl

theorem commitRun_withHostOf (s u : State) : commitRun (s.withHostOf u) = (commitRun s).withHostOf u := by
  rw [commitRun, commitChain_withHostOf]
  rfl

/-- No commit reads or writes a field that the host's moves change while BUSY. -/
theorem commitOf_withHostOf (c : Command) (s u : State) :
    commitOf c (s.withHostOf u) = (commitOf c s).withHostOf u := by
  cases c with
  | run => exact commitRun_withHostOf s u
  | dcs => exact commitChain_withHostOf _ s u
  | filter => exact commitFir_withHostOf _ s u
  | nop | classify | score _ | recover | resolve | golayEnc | golayChk | clrblk => rfl

/-- Settles O58: the host's moves edit only what no commit reads or writes, so the completion after them is the
completion before them, edited. -/
theorem completionFallsAnywhere : Obligations.CompletionFallsAnywhere := by
  intro s t l rest hb hl hstep
  rw [step_engineTurn_busy (s := { s with agenda := .complete :: rest }) (.inr rfl) hb] at hstep
  obtain ⟨hready, rfl⟩ := exec_pending_next (s := { s with agenda := rest }) hb hstep
  obtain ⟨u, hbu, hu, hrun⟩ := run_hostMoves l (.complete :: rest) hb hl
  have hagenda : u.agenda = .complete :: rest := hostEdited_agenda hu
  have hpending : u.pending = s.pending :=
    hostEdited_pending (s := { s with agenda := .complete :: rest }) hu
  have hrest : ({ u with agenda := rest } : State) = State.withHostOf { s with agenda := rest } u :=
    hostEdited_setAgenda hu rest
  have hlast : step u
      = .next (((commitOf s.pending { s with agenda := rest }).withHostOf u).finish s.pending) := by
    rw [step_engineTurn_busy (.inr hagenda) hbu, hrest, hpending, ← commitOf_withHostOf]
    exact exec_pending (s := State.withHostOf { s with agenda := rest } u) hbu hready
  refine ⟨_, (hrun 1).trans (coreRun_succ (M := Sys2Proof.core) hlast 0), rfl, State.finish_busy _ _, ?_, ?_⟩
  · obtain ⟨_, hdone, _⟩ := completedStatus_of s.pending.opcode u.status
    exact hdone
  · obtain ⟨_, _, hop, _⟩ := completedStatus_of s.pending.opcode u.status
    obtain ⟨_, _, hop', _⟩ := completedStatus_finish s.pending { s with agenda := rest }
    exact hop.trans hop'.symm

end Sys2Proof.Machine
end

section
/-! SUPPORT. What each computation reads (R131): the scorer, the filter with its extremes and the DCS chain read the
4000 samples of the block, the synchroniser the waveform below L; so a completion is a function of its inputs. -/

namespace Sys2Proof.Machine

/-! The block (R21, R75, R87, R90). -/

/-- Two blocks agree on their 4000 samples. -/
def sameBlock (blk blk' : Nat → Int) : Prop := ∀ j, j < 4000 → blk j = blk' j

theorem leastUpTo_congr {x y : Nat → Int} {n : Nat} (h : ∀ m, m ≤ n → x m = y m) :
    leastUpTo x n = leastUpTo y n := by
  induction n with
  | zero => exact h 0 (le_refl 0)
  | succ n ih => rw [leastUpTo, leastUpTo, ih fun m hm => h m (by omega), h (n + 1) (le_refl _)]

theorem greatestUpTo_congr {x y : Nat → Int} {n : Nat} (h : ∀ m, m ≤ n → x m = y m) :
    greatestUpTo x n = greatestUpTo y n := by
  induction n with
  | zero => exact h 0 (le_refl 0)
  | succ n ih => rw [greatestUpTo, greatestUpTo, ih fun m hm => h m (by omega), h (n + 1) (le_refl _)]

section
variable {blk blk' : Nat → Int} (h : sameBlock blk blk')
include h

theorem correlation_congr (tab : Nat → Int) (sf : Nat) : correlation tab blk sf = correlation tab blk' sf :=
  Finset.sum_congr rfl fun j hj => by rw [h j (Finset.mem_range.1 hj)]

theorem toneScores_congr (p : Config.Params) : toneScores p blk = toneScores p blk' :=
  funext fun k => by
    rw [toneScores, toneScores, score_eq, score_eq, correlation_congr h, correlation_congr h]

section
variable {p : Config.Params} (hp : p.wf = true)
include hp

theorem fir_congr {m : Nat} (hm : m < p.waveLen) : fir p blk m = fir p blk' m :=
  filterReadsInsideTheBlock p blk blk' m hp hm fun j _ _ hj => h j (by omega)

theorem firPeakLow_congr : firPeakLow p blk = firPeakLow p blk' := by
  have hL := (waveLen_bounds hp).1
  exact leastUpTo_congr fun m hm => fir_congr h hp (by omega)

theorem firPeakHigh_congr : firPeakHigh p blk = firPeakHigh p blk' := by
  have hL := (waveLen_bounds hp).1
  exact greatestUpTo_congr fun m hm => fir_congr h hp (by omega)

end
end

/-- The synchroniser reads the waveform below L only (R103). -/
theorem recoverBits_congr {p : Config.Params} (hp : p.wf = true) {w w' : Nat → Int}
    (h : ∀ m, m < p.waveLen → w m = w' m) (low high : Int) (invMask : BitVec 23) :
    recoverBits p w low high invMask = recoverBits p w' low high invMask := by
  obtain ⟨hagree, hL⟩ := synchroniserReadsInsideTheWaveform p w w' low high invMask
  exact hagree fun k hk => h k (lt_of_le_of_lt hk (hL hp))

theorem chainRaw_congr {p : Config.Params} (hp : p.wf = true) {blk blk' : Nat → Int} (h : sameBlock blk blk')
    (invMask : BitVec 23) : chainRaw p blk invMask = chainRaw p blk' invMask := by
  rw [chainRaw, chainRaw, firPeakLow_congr h hp, firPeakHigh_congr h hp]
  exact recoverBits_congr hp (fun m hm => fir_congr h hp hm) _ _ invMask

/-! The commit sets (R124). -/

section
variable {s s' : State} (hblock : sameBlock s.block s'.block)
include hblock

theorem sameToneCommit_commitTone (p : Config.Params) (hdebug : s.cfgDebug = s'.cfgDebug) :
    sameToneCommit s.cfgDebug (commitTone p s) (commitTone p s') := by
  have hscores := toneScores_congr hblock p
  simp only [sameToneCommit, commitTone, hscores, ← hdebug, true_and]
  intro hd
  rw [if_pos hd, if_pos hd]

section
variable (hwf : s.mem.wf = true) (hwf' : s'.mem.wf = true)
include hwf hwf'

theorem sameFilterCommit_commitFir :
    sameFilterCommit (commitFir Config.hw.params s) (commitFir Config.hw.params s') := by
  have hok := Config.hw.ok
  refine ⟨fun m hm => ?_, commitFir_waveLoaded s, commitFir_waveLoaded s', ?_, ?_⟩
  · rw [commitFir_waveValue hok hwf hm, commitFir_waveValue hok hwf' hm, fir_congr hblock hok hm]
  · exact congrArg to32 (firPeakLow_congr hblock hok)
  · exact congrArg to32 (firPeakHigh_congr hblock hok)

theorem sameChainCommit_commitDcs (hinvert : s.cfgInvert = s'.cfgInvert) (hmode : s.cfgAlias = s'.cfgAlias) :
    sameChainCommit (commitDcs s) (commitDcs s') := by
  have hraw : chainRaw Config.hw.params s.block s.invMask = chainRaw Config.hw.params s'.block s'.invMask := by
    rw [State.invMask, State.invMask, hinvert, chainRaw_congr Config.hw.ok hblock]
  refine ⟨sameFilterCommit_commitFir hblock hwf hwf', congrArg packRaw hraw, ?_⟩
  show packResolved (chainResolved _ s.cfgAlias _) = packResolved (chainResolved _ s'.cfgAlias _)
  rw [hraw, hmode]

end

end

theorem sampleRaw_sameBlock {s s' : State} (h : ∀ j, j < 4000 → s.sampleRaw j = s'.sampleRaw j) :
    sameBlock s.block s'.block := fun j hj => congrArg centre (h j hj)

/-- The idle registers after RUN follow from what the branches committed and what they held (R39, R128). -/
theorem idleUpdate_congr {s s' : State} {d : Bool} (htone : sameToneCommit d (commitClassify s) (commitClassify s'))
    (hchain : sameChainCommit (commitDcs s) (commitDcs s')) (htimeout : s.idleTimeout = s'.idleTimeout)
    (hphase : s.sweepPhase = s'.sweepPhase) :
    idleUpdate Config.hw.params s = idleUpdate Config.hw.params s' := by
  obtain ⟨hfound, _⟩ := htone
  obtain ⟨_, _, hcode⟩ := hchain
  rw [idleUpdate_eq_committedBits, idleUpdate_eq_committedBits, hfound, hcode, htimeout, hphase]

/-- Commits from states that agree on the inputs agree on the commit set (R124, R131). -/
theorem sameCommit_of_sameInputs {s s' : State} (hwf : s.mem.wf = true) (hwf' : s'.mem.wf = true)
    (h : sameInputs s s') : sameCommit s.cfgDebug s.pending (commitOf s.pending s) (commitOf s.pending s') := by
  obtain ⟨_, hdebug, hinvert, hmode, harg, _, _, hsamples, hwave, hidle⟩ := h
  cases hc : s.pending with
  | nop => trivial
  | clrblk => exact ⟨rfl, rfl⟩
  | golayEnc =>
    show (commitGolayEnc s).result = (commitGolayEnc s').result
    rw [commitGolayEnc, commitGolayEnc, State.data12, State.data12, harg]
  | golayChk =>
    show (commitGolayChk s).result = (commitGolayChk s').result
    rw [commitGolayChk, commitGolayChk, State.word23, State.word23, harg]
  | resolve =>
    show (commitResolve s).result = (commitResolve s').result
    rw [commitResolve, commitResolve, State.word23, State.word23, harg, hmode]
  | recover =>
    obtain ⟨hvalues, hlow, hhigh⟩ := hwave hc
    show (commitRecover s).dcsRaw = (commitRecover s').dcsRaw
    rw [commitRecover, commitRecover, State.invMask, State.invMask, hinvert, hlow, hhigh]
    exact congrArg packRaw (recoverBits_congr Config.hw.ok hvalues _ _ _)
  | score k =>
    have hblock := sampleRaw_sameBlock (hsamples (by simp [consumesBlock, hc]))
    show (commitScore k s).result = (commitScore k s').result
    rw [commitScore, commitScore, toneScores_congr hblock]
  | classify =>
    have hblock := sampleRaw_sameBlock (hsamples (by simp [consumesBlock, hc]))
    exact sameToneCommit_commitTone hblock _ hdebug
  | filter =>
    have hblock := sampleRaw_sameBlock (hsamples (by simp [consumesBlock, hc]))
    exact sameFilterCommit_commitFir hblock hwf hwf'
  | dcs =>
    have hblock := sampleRaw_sameBlock (hsamples (by simp [consumesBlock, hc]))
    exact sameChainCommit_commitDcs hblock hwf hwf' hinvert hmode
  | run =>
    have hblock := sampleRaw_sameBlock (hsamples (by simp [consumesBlock, hc]))
    have htone : sameToneCommit s.cfgDebug (commitClassify s) (commitClassify s') :=
      sameToneCommit_commitTone hblock _ hdebug
    have hchain := sameChainCommit_commitDcs hblock hwf hwf' hinvert hmode
    obtain ⟨htimeout, hphase⟩ := hidle hc
    have hupdate := idleUpdate_congr htone hchain htimeout hphase
    exact ⟨htone, hchain, congrArg Prod.fst hupdate, congrArg Prod.snd hupdate⟩

/-- The end of a completion is STATUS alone, which is in no commit set (R122, R124). -/
theorem sameCommit_finish {d : Bool} {c : Command} {t u : State} (h : sameCommit d c t u) (c' : Command) :
    sameCommit d c (t.finish c') (u.finish c') := by
  cases c <;> exact h

/-- Settles O59: the second state has the valid entries that the first completed with, and its commit agrees. -/
theorem completionReadsOnlyItsInputs : Obligations.CompletionReadsOnlyItsInputs := by
  intro s s' t hb hb' hwf hwf' hin hexec
  obtain ⟨hready, rfl⟩ := exec_pending_next hb hexec
  have hcommit := sameCommit_of_sameInputs hwf hwf' hin
  obtain ⟨hpending, _, _, _, _, hsample, hwave, _⟩ := hin
  have hready' : ramReady s'.pending s' := by
    rw [← hpending, ramReady, blockLoaded, waveLoaded, ← hsample, ← hwave]
    exact hready
  refine ⟨_, exec_pending hb' hready', ?_⟩
  rw [← hpending]
  exact sameCommit_finish hcommit s.pending

end Sys2Proof.Machine
end

section
/-! SUPPORT. The engine's exceptions as the host meets them: the interrupt line (R47, R148), and the writes that mode
BUSY refuses (R138, R162). -/

namespace Sys2Proof.Machine

/-! The interrupt line (R47, R148). -/

/-- The complement of the W1C mask leaves out bits 1 to 6 (R28). -/
theorem not_w1cMask_bit : ∀ b < 32, (~~~w1cMask).getLsbD b = false ↔ 1 ≤ b ∧ b ≤ 6 := by decide

/-- The masked STATUS is zero exactly when DONE and the five error bits are all 0 (R28). -/
theorem and_w1cMask_eq_zero_iff (st : Word) :
    st &&& w1cMask = 0#32 ↔ ∀ b, 1 ≤ b → b ≤ 6 → st.getLsbD b = false := by
  rw [← BitVec.not_not (b := w1cMask), andNot_eq_zero_iff]
  constructor
  · intro h b h1 h6
    have hb : b < 32 := by omega
    exact h b hb ((not_w1cMask_bit b hb).2 ⟨h1, h6⟩)
  · intro h b hb hmask
    obtain ⟨h1, h6⟩ := (not_w1cMask_bit b hb).1 hmask
    exact h b h1 h6

/-- Settles O13: the masked STATUS is nonzero exactly when one of its bits 1 to 6 is 1. -/
theorem irqIsEnabledDoneOrError : Obligations.IrqIsEnabledDoneOrError := by
  intro s
  rw [State.irq, State.irqEnabled, Bool.and_eq_true, bne_iff_ne, Ne, and_w1cMask_eq_zero_iff]
  simp only [not_forall, Bool.not_eq_false, exists_prop]

/-! The writes that mode BUSY refuses (R138, R162). -/

/-- The targets that the host writes in mode IDLE only: CMD, the two peaks and the two windows (R138). -/
def writtenInIdleOnly : Target → Bool
  | .reg .cmd | .reg .peakLow | .reg .peakHigh | .wave _ | .sample _ => true
  | .reg _ | .score _ => false

/-- While BUSY a write of such a target is BusyError alone. -/
theorem State.writeTarget_of_busy {s : State} (hb : s.busy = true) {t : Target} (ht : writtenInIdleOnly t = true)
    (v : Word) : s.writeTarget v t = s.raise .busy := by
  cases t with
  | reg r =>
    cases r with
    | cmd => exact State.issue_of_busy hb v
    | peakLow | peakHigh => exact if_pos hb
    | id | ctrl | status | arg | result | toneResult | toneMax | toneAvg | toneMaxIdx | dcsResult | dcsRaw
      | idleTimeout | sweepPhase => exact nomatch ht
  | wave k => exact if_pos hb
  | sample j => exact if_pos hb
  | score k => exact nomatch ht

theorem refusedWith_write_of_busy {s : State} (hb : s.busy = true) {a : BitVec 13} {t : Target}
    (ha : busTarget a = some t) (ht : writtenInIdleOnly t = true) (v : Word) :
    refusedWith 1#4 2 s (exec (.write a v) s) := by
  rw [exec_write_mapped ha, State.writeTarget_of_busy hb ht]
  exact refusedWith_busy s

/-- Settles O28: the address map names each target, and each is written in mode IDLE only. -/
theorem writesWhileBusyAreRefused : Obligations.WritesWhileBusyAreRefused := fun _ v hb =>
  ⟨refusedWith_write_of_busy hb (busTarget_reg .cmd) rfl v,
    refusedWith_write_of_busy hb (busTarget_reg .peakLow) rfl v,
    refusedWith_write_of_busy hb (busTarget_reg .peakHigh) rfl v,
    fun _ hj => refusedWith_write_of_busy hb (busTarget_sample hj) rfl v,
    fun _ hk => refusedWith_write_of_busy hb (busTarget_wave hk) rfl v⟩

end Sys2Proof.Machine
end

section
/-! SUPPORT. The reset input (R157): the step that takes it, what every register reads after it, and the invariant there. -/

namespace Sys2Proof.Machine

/-- Settles O54: the reset pulse leaves the reset state as it is, and every pulse leads to the invariant. -/
theorem invariantHoldsAtReset : Obligations.InvariantHoldsAtReset := State.resetPulse_inv State.reset

theorem step_reset {s : State} {rest : List Event} (h : s.agenda = .reset :: rest) :
    step s = .next (State.resetPulse { s with agenda := rest }) :=
  step_of_done (by rw [fetch, h])

/-- After reset every register but ID, CTRL and IDLE_TIMEOUT reads 0 (R25). -/
theorem reset_regRead_eq_zero {r : Reg} (hid : r ≠ .id) (hctrl : r ≠ .ctrl) (htimeout : r ≠ .idleTimeout) :
    State.reset.regRead r = 0#32 := by
  cases r with
  | id => exact absurd rfl hid
  | ctrl => exact absurd rfl hctrl
  | idleTimeout => exact absurd rfl htimeout
  | status | cmd | arg | result | toneResult | toneMax | toneAvg | toneMaxIdx | dcsResult | dcsRaw | peakLow
    | peakHigh | sweepPhase => rfl

/-- Settles O8: the step is the reset pulse, and the reset state is read register by register. -/
theorem resetInputGivesTheResetState : Obligations.ResetInputGivesTheResetState := by
  refine ⟨fun s rest h => step_reset h, and_fullMask _, rfl, fun r => reset_regRead_eq_zero, rfl, fun k => ?_,
    fun j => BitVec.getLsbD_zero, fun k => BitVec.getLsbD_zero, rfl, rfl⟩
  exact Vector.getElem_replicate k.isLt

end Sys2Proof.Machine
end

section
/-! SUPPORT. Who changes the DetectorConfig fields (R159): the operations that keep all three, the one word offset and the
one raw access that write CTRL, the one commit that writes the idle registers; with them, what a step does to them. -/

namespace Sys2Proof.Machine

/-- The two states agree on the DetectorConfig fields (R159). -/
def sameConfig (s t : State) : Prop :=
  t.ctrl = s.ctrl ∧ t.idleTimeout = s.idleTimeout ∧ t.sweepPhase = s.sweepPhase

/-! The operations that keep the fields. -/

theorem State.accept_sameConfig (s : State) (c : Command) : sameConfig s (s.accept c) := by
  rcases s.accept_cases c with ⟨_, he | he⟩ | ⟨_, he⟩
  all_goals
    rw [he]
    exact ⟨rfl, rfl, rfl⟩

theorem State.issue_sameConfig (s : State) (v : Word) : sameConfig s (s.issue v) := by
  rcases s.issue_cases v with ⟨_, he⟩ | ⟨_, _, he⟩ | ⟨_, c, _, he⟩
  · rw [he]
    exact ⟨rfl, rfl, rfl⟩
  · rw [he]
    exact ⟨rfl, rfl, rfl⟩
  · rw [he]
    exact s.accept_sameConfig c

theorem State.readTarget_sameConfig (s : State) (t : Target) : sameConfig s (s.readTarget t) := by
  obtain ⟨v, n, he⟩ := s.readTarget_cases t
  rw [he]
  exact ⟨rfl, rfl, rfl⟩

theorem State.refusedAccess_sameConfig (s : State) (we : Bool) : sameConfig s (s.refusedAccess we) := by
  cases we <;> exact ⟨rfl, rfl, rfl⟩

/-- A write of any target but CTRL keeps them: no other host write reaches a DetectorConfig field (R55). -/
theorem State.writeTarget_sameConfig (s : State) (v : Word) {t : Target} (ht : t ≠ .reg .ctrl) :
    sameConfig s (s.writeTarget v t) := by
  cases t with
  | reg r =>
    cases r with
    | ctrl => exact absurd rfl ht
    | cmd => exact s.issue_sameConfig v
    | peakLow | peakHigh =>
      rw [State.writeTarget]
      split
      all_goals exact ⟨rfl, rfl, rfl⟩
    | id | status | arg | result | toneResult | toneMax | toneAvg | toneMaxIdx | dcsResult | dcsRaw | idleTimeout
      | sweepPhase => exact ⟨rfl, rfl, rfl⟩
  | score k => exact ⟨rfl, rfl, rfl⟩
  | wave k | sample j =>
    rw [State.writeTarget]
    split
    all_goals exact ⟨rfl, rfl, rfl⟩

/-- A completion of any command but RUN keeps them (R124). -/
theorem completion_sameConfig {c : Command} (hc : c ≠ .run) (s : State) : sameConfig s ((commitOf c s).finish c) := by
  cases c with
  | run => exact absurd rfl hc
  | dcs | filter =>
    simp only [commitOf, commitDcs, commitChain, commitFilter, commitFir_eq]
    exact ⟨rfl, rfl, rfl⟩
  | nop | classify | score _ | recover | resolve | golayEnc | golayChk | clrblk => exact ⟨rfl, rfl, rfl⟩

theorem completion_ctrl (c : Command) (s : State) : ((commitOf c s).finish c).ctrl = s.ctrl := by
  rw [State.finish_ctrl, commitOf_frame]

/-! Where CTRL is written (R25, R50, R52). -/

/-- A register stands at one index only (R25). -/
theorem regOfIndex_eq_some {n : Nat} {r : Reg} (h : regOfIndex n = some r) : n = regOffset r / 4 := by
  obtain ⟨hn, _⟩ := List.getElem?_eq_some_iff.1 h
  change n < 16 at hn
  interval_cases n <;> cases h <;> rfl

/-- Above the register block no offset names a register (R50). -/
theorem targetOf_ne_reg {L off : Nat} (hoff : 0x40 ≤ off) (r : Reg) : targetOf L off ≠ some (.reg r) := by
  rw [targetOf, if_neg (by omega)]
  split_ifs <;> simp

/-- The word offset of a register is the only one that names it (R25, R50). -/
theorem busTarget_reg_iff (a : BitVec 13) (r : Reg) :
    busTarget a = some (.reg r) ↔ a = BitVec.ofNat 13 (regOffset r / 4) := by
  refine ⟨fun h => ?_, fun h => h ▸ busTarget_reg r⟩
  rcases Nat.lt_or_ge (byteOffset a) 0x40 with hlow | hhigh
  · rw [busTarget, targetOf_reg hlow, Option.map_eq_some_iff] at h
    obtain ⟨r', hr, heq⟩ := h
    cases heq
    rw [← regOfIndex_eq_some hr, byteOffset, Nat.mul_div_cancel_left _ (by decide), BitVec.ofNat_toNat,
      BitVec.setWidth_eq]
  · exact absurd h (targetOf_ne_reg hhigh r)

/-- The admitted raw access that spells a write of CTRL is the 4-byte write at its byte offset (R52). -/
theorem accessInstr_eq_write_ctrl {we : Bool} {off : BitVec 15} {v w : Word} {size : Nat}
    (hadm : admitted off size = true) (h : accessInstr we off v = .write 1#13 w) :
    we = true ∧ off = 4#15 ∧ size = 4 := by
  obtain ⟨halign, hsize⟩ := (admitted_iff off size).1 hadm
  cases we with
  | false => exact nomatch h
  | true =>
    injection h with ha
    have hoff := four_mul_wordOffset halign
    rw [ha] at hoff
    exact ⟨rfl, BitVec.eq_of_toNat_eq hoff.symm, hsize⟩

/-- A transaction keeps the DetectorConfig fields, or is the write of CTRL and changes CTRL alone (R54, R55). -/
theorem exec_transaction_config {i : Instr} (hi : isTransaction i) {s t : State} (he : exec i s = .next t) :
    sameConfig s t ∨ ∃ v, i = .write 1#13 v ∧ t = { s with ctrl := v &&& ctrlMask } := by
  rcases hi with ⟨a, rfl⟩ | ⟨a, v, rfl⟩
  · left
    cases ha : busTarget a with
    | none =>
      rw [exec_read_unmapped ha] at he
      cases he
      exact ⟨rfl, rfl, rfl⟩
    | some tg =>
      rw [exec_read_mapped ha] at he
      cases he
      exact s.readTarget_sameConfig tg
  · cases ha : busTarget a with
    | none =>
      rw [exec_write_unmapped ha] at he
      cases he
      exact .inl ⟨rfl, rfl, rfl⟩
    | some tg =>
      rw [exec_write_mapped ha] at he
      cases he
      by_cases hctrl : tg = .reg .ctrl
      · subst hctrl
        obtain rfl := (busTarget_reg_iff a .ctrl).1 ha
        exact .inr ⟨v, rfl, rfl⟩
      · exact .inl (s.writeTarget_sameConfig v hctrl)

/-! The step (R159). -/

/-- The next move is a host write of CTRL: its BUS record, or the raw access at its offset (R159). -/
def hostWritesCtrl (s : State) : Prop :=
  (∃ r rest v, s.agenda = .word (.bus r) :: rest ∧ decode (.bus r) = .ok (.write 1#13 v))
  ∨ ∃ off size v rest, s.agenda = .access true off size v :: rest ∧ off = 4#15 ∧ size = 4

/-- The next move is the completion of RUN (R159). -/
def runCompletes (s : State) : Prop :=
  s.busy = true ∧ s.pending = .run ∧ (s.agenda = [] ∨ ∃ rest, s.agenda = .complete :: rest)

/-- What a step does to the DetectorConfig fields: it keeps them, or it is one of the three ways, each with the fields
that it leaves (R159). -/
theorem step_config_cases {s t : State} (h : step s = .next t) :
    sameConfig s t
    ∨ (∃ rest, s.agenda = .reset :: rest)
    ∨ (hostWritesCtrl s ∧ t.idleTimeout = s.idleTimeout ∧ t.sweepPhase = s.sweepPhase)
    ∨ (runCompletes s ∧ t.ctrl = s.ctrl) := by
  rcases step_cases h with ⟨rest, hreset, _⟩ | ⟨rest, hturn, ⟨_, rfl⟩ | ⟨hb, he⟩⟩ | ⟨w, rest, _, rfl⟩
    | ⟨i, rest, hmove, hi, he⟩ | ⟨we, _, _, _, rest, _, _, rfl⟩
  · exact .inr (.inl ⟨rest, hreset⟩)
  · exact .inl ⟨rfl, rfl, rfl⟩
  · obtain ⟨_, rfl⟩ := exec_pending_next (s := { s with agenda := rest }) hb he
    by_cases hrun : s.pending = .run
    · exact .inr (.inr (.inr ⟨⟨hb, hrun, hturn.imp And.left fun hcons => ⟨rest, hcons⟩⟩, completion_ctrl _ _⟩))
    · exact .inl (completion_sameConfig hrun { s with agenda := rest })
  · exact .inl (State.issue_sameConfig { s with agenda := rest } w)
  · rcases exec_transaction_config hi he with hsame | ⟨v, rfl, rfl⟩
    · exact .inl hsame
    · refine .inr (.inr (.inl ⟨?_, rfl, rfl⟩))
      rcases hmove with ⟨r, ha, hd⟩ | ⟨we, off, size, w, ha, hadm, hinstr⟩
      · exact .inl ⟨r, rest, v, ha, hd⟩
      · obtain ⟨rfl, hoff, hsize⟩ := accessInstr_eq_write_ctrl hadm hinstr.symm
        exact .inr ⟨off, size, w, rest, ha, hoff, hsize⟩
  · exact .inl (State.refusedAccess_sameConfig { s with agenda := rest } we)

/-- Settles O60: of the four things a step can do to the fields, each but reset leaves what the other clauses speak of. -/
theorem configurationChangesInThreeWays : Obligations.ConfigurationChangesInThreeWays := by
  intro s t h
  rcases step_config_cases h with ⟨hctrl, htimeout, hphase⟩ | hreset | ⟨hwrite, htimeout, hphase⟩ | ⟨hrun, hctrl⟩
  · exact ⟨absurd hctrl, fun hidle => hidle.elim (absurd htimeout) (absurd hphase)⟩
  · exact ⟨fun _ => .inl hreset, fun _ => .inl hreset⟩
  · exact ⟨fun _ => .inr hwrite, fun hidle => hidle.elim (absurd htimeout) (absurd hphase)⟩
  · exact ⟨absurd hctrl, fun _ => .inr hrun⟩

end Sys2Proof.Machine
end
